-- ==== Sys2Proof/Word.lean ====
section
/-! DEFINITION. The two word types of the core (spec rule R4): 8-bit data, 16-bit addresses. -/

namespace Sys2Proof

/-- Data, a memory cell, `A`, `X`, `Y`, `SP` (R4, R11, R13, R20). -/
abbrev Byte := BitVec 8

/-- An address or `PC` (R4, R12). -/
abbrev Word := BitVec 16

end Sys2Proof
end

