-- ==== Sys2Proof/Machine/Bits.lean ====
section
/-! DEFINITION. Slices, concatenation and extension of the spec's notation (spec/00_scope.md section 5). -/

namespace Sys2Proof.Machine

/-- `w[7:0]`. -/
def loByte (w : Word) : Byte := w.extractLsb' 0 8

/-- `w[15:8]`, the page of an address. -/
def hiByte (w : Word) : Byte := w.extractLsb' 8 8

/-- `{hi, lo}`: `hi * 256 + lo` (R34: the low byte lies at the lower address). -/
def joinBytes (hi lo : Byte) : Word := hi ++ lo

/-- `zext_16`. -/
def zext16 (v : Byte) : Word := v.setWidth 16

/-- `sext_16`, the two's-complement extension of a branch displacement (R61). -/
def sext16 (v : Byte) : Word := v.signExtend 16

/-- Whether two addresses lie in different pages (R56, R58, R63, R160). -/
def pagesDiffer (a b : Word) : Bool := hiByte a != hiByte b

end Sys2Proof.Machine
end

