-- ==== Sys2Proof/Config.lean ====
section
/-! DEFINITION. What an implementation fixes: the reset argument of `State.reset` and the open parameters of
spec/92_eei_decisions.md that this model carries, each at the value the spec's numbered rules state.
No value is left free by the spec, so no opaque constant stands here. -/

namespace Sys2Proof.Config

/-- The `reset_vector` that `State.reset` passes to the reset operation. R4 leaves it to each reset; the source's
one reset example is `reset(0xFFFC)`. DESIGN CHOICE, unsafe: log entry 1. -/
def resetVector : Word := 0xFFFC

/-- What a cell that nothing has written since reset holds: 0x00 (R20, R220). -/
def clearedByte : Byte := 0x00

/-- `PHP_FORCED_BITS`: the bits PHP forces to 1 (R121; the spec's decision D4). UNVERIFIED, unsafe: log entry 9. -/
def phpForcedBits : Byte := 0x30

/-- `PLP_WRITES_B_U`: whether PLP loads `B` and `U` (R123; the spec's decision D4). UNVERIFIED, unsafe: log entry 9. -/
def plpWritesBU : Bool := false

/-- `TXS_SETS_ZN`: whether TXS applies `SetZN` (R115; the spec's decision D11). UNVERIFIED, unsafe: log entry 10. -/
def txsSetsZN : Bool := false

end Sys2Proof.Config
end

