-- ==== Sys2Proof/Machine/State.lean ====
section
/-! DEFINITION. The machine's state as plain data: the processor state record (R10), memory (R20) and the hidden state
(R21); the reasons a step can stop; the state after reset (R220). -/

namespace Sys2Proof.Machine

/-- The eight status flags, each a separate bit (R14): carry, zero, interrupt disable, decimal, break, unused/expansion,
overflow, negative. -/
structure Flags where
  c : Bool
  z : Bool
  i : Bool
  d : Bool
  b : Bool
  u : Bool
  v : Bool
  n : Bool
deriving DecidableEq, Repr

/-- Memory (R20): the cells that do not hold `Config.clearedByte`, by address. -/
abbrev Memory := List Host.Cell

/-- The canonical form: addresses strictly rising, inside the 65536-cell space, and no entry equal to what an unlisted
address reads as. Equal memories are then equal lists. -/
abbrev Memory.wf (m : Memory) : Prop :=
  m.Pairwise (fun c d => c.1 < d.1) ∧ ∀ c ∈ m, c.2 ≠ Config.clearedByte ∧ c.1 < 65536

structure State where
  /-- `PC`, the address of the next instruction byte to fetch (R12). -/
  pc : Word
  /-- `SP`, the low byte of the next free stack slot (R13). -/
  sp : Byte
  /-- `A` (R11). -/
  a : Byte
  /-- `X` (R11). -/
  x : Byte
  /-- `Y` (R11). -/
  y : Byte
  /-- The status flags (R14, R15). -/
  flags : Flags
  /-- `M` (R20). -/
  mem : Memory
  /-- `halted`: an unrecognised opcode was fetched (R21, R200). -/
  halted : Bool
  /-- `fault_addr`: the address that byte was fetched from (R21, R200). -/
  faultAddr : Word
  /-- `fault_op`: that byte (R21, R200). -/
  faultOp : Byte
  /-- `cycles_consumed` of the current run (R21, R208); 0 between runs, when the core has none (log entry 3). -/
  cycles : Nat
deriving DecidableEq, Repr

/-- Why the machine stops. -/
inductive Fault where
  /-- A step of the halted core: it executes nothing and reports the byte that halted it and its address (R203, R225).
  Raised by `step` and nothing else; never by a meaning. Safe. -/
  | unrecognizedOpcode (addr : Word) (op : Byte)
deriving DecidableEq, Repr

/-- Why a request is given no behaviour. -/
inductive Refusal where
  /-- An instruction without a meaning in this model. Raised by no arm of `exec` as the model stands. Safe. -/
  | notModelled (mnemonic : String)
  /-- A write through the state access port, or a `load_program`, while the core is halted: the port is then for reads
  only (R230). Raised by `hostWrite` and `loadProgram`. Safe. -/
  | hostWriteWhileHalted
  /-- A `load_program` image of fewer than two bytes (R231). Raised by `loadProgram`. Safe. -/
  | imageTooShort
  /-- A `load_program` image that runs past 0xFFFF (R231). Raised by `loadProgram`. Safe. -/
  | imagePastTop
deriving DecidableEq, Repr

/-- What a step, or a request that runs no instruction, answers. -/
abbrev Result := Host.Outcome State Fault Refusal

/-- The flags after reset: all 0 (R220). -/
def Flags.cleared : Flags :=
  { c := false, z := false, i := false, d := false, b := false, u := false, v := false, n := false }

/-- `reset(reset_vector)` (R220, R221): the only constructor of a state, so it reads none. The fault record is
meaningless while `halted = 0` and `cycles_consumed` exists only during a run (R21); both are 0 here, DESIGN CHOICE,
log entries 2 and 3. -/
def State.resetTo (vector : Word) : State where
  pc := vector
  sp := 0xFD
  a := 0x00
  x := 0x00
  y := 0x00
  flags := Flags.cleared
  mem := []
  halted := false
  faultAddr := 0x0000
  faultOp := 0x00
  cycles := 0

/-- The state right after reset, with the argument log entry 1 names. -/
def State.reset : State := State.resetTo Config.resetVector

end Sys2Proof.Machine
end

