-- ==== Sys2Proof/Machine/Ops.lean ====
section
/-! DEFINITION. The named operations over memory and registers: the primitives of spec/20_memory.md and the one
exception of spec/60_exceptions.md. Each charges the cycles its rule gives it (R240 adds them up). -/

namespace Sys2Proof.Machine

/-! Cells -/

/-- The content of a cell; a cell the list does not name holds `Config.clearedByte` (R20). -/
def Memory.read : Memory → Nat → Byte
  | [], _ => Config.clearedByte
  | (k, v) :: rest, a => if k = a then v else Memory.read rest a

/-- The memory without any entry at `a`. -/
def Memory.without (m : Memory) (a : Nat) : Memory := m.filter (fun c => c.1 != a)

/-- The memory with an entry for `a` put before the first greater address. -/
def Memory.place : Memory → Nat → Byte → Memory
  | [], a, v => [(a, v)]
  | (k, w) :: rest, a, v => if a < k then (a, v) :: (k, w) :: rest else (k, w) :: Memory.place rest a v

/-- `M[a] <- v`, keeping the canonical form. -/
def Memory.write (m : Memory) (a : Nat) (v : Byte) : Memory :=
  if v = Config.clearedByte then Memory.without m a else Memory.place (Memory.without m a) a v

/-- `M[a], M[a + 1], ...` set to the bytes of a list. -/
def Memory.writeList : Memory → Nat → List Byte → Memory
  | m, _, [] => m
  | m, a, v :: vs => Memory.writeList (Memory.write m a v) (a + 1) vs

/-! Register updates -/

def State.setA (v : Byte) (s : State) : State := { s with a := v }
def State.setX (v : Byte) (s : State) : State := { s with x := v }
def State.setY (v : Byte) (s : State) : State := { s with y := v }
def State.setSP (v : Byte) (s : State) : State := { s with sp := v }
def State.setPC (v : Word) (s : State) : State := { s with pc := v }
def State.setFlags (f : Flags) (s : State) : State := { s with flags := f }
def State.setMem (m : Memory) (s : State) : State := { s with mem := m }

/-- `n` more cycles of `cycles_consumed` (R21, R208). -/
def State.charge (n : Nat) (s : State) : State := { s with cycles := s.cycles + n }

/-- The core without a count of its own: R225 starts every run so, and R208 leaves the core so after it. The count is then 0,
DESIGN CHOICE, log entry 3. -/
def State.dropCount (s : State) : State := { s with cycles := 0 }

/-- The effect of `n` calls of `FetchByte` on `PC` and the count (R36); the bytes themselves are the decoder's. -/
def State.consume (n : Nat) (s : State) : State :=
  (s.setPC (s.pc + BitVec.ofNat 16 n)).charge n

/-! Memory access -/

/-- `M[a]`, the content of one cell. -/
def byteAt (s : State) (a : Word) : Byte := Memory.read s.mem a.toNat

/-- The little-endian word at `a`: the high byte at `a +_16 1`, modulo 65536 and in no other page than that (R32; the
spec's decision D7). UNVERIFIED at 0xFFFF and at the zero-page vector 0x00FF, unsafe: log entry 12. -/
def wordAt (s : State) (a : Word) : Word := joinBytes (byteAt s (a + 1)) (byteAt s a)

/-- `MemRead(addr, 1)` (R30). -/
def memRead (a : Word) (s : State) : Byte × State := (byteAt s a, s.charge 1)

/-- `MemWrite(addr, 1, v)` (R31). -/
def memWrite (a : Word) (v : Byte) (s : State) : State :=
  (s.setMem (Memory.write s.mem a.toNat v)).charge 1

/-- `ReadWord(addr)` (R32). -/
def readWord (a : Word) (s : State) : Word × State :=
  let lo := memRead a s
  let hi := memRead (a + 1) lo.2
  (joinBytes hi.1 lo.1, hi.2)

/-- `WriteWord(addr, w)` (R33): no instruction uses it. -/
def writeWord (a : Word) (w : Word) (s : State) : State :=
  memWrite (a + 1) (hiByte w) (memWrite a (loByte w) s)

/-- `FetchByte()` (R36). -/
def fetchByte (s : State) : Byte × State :=
  let b := memRead s.pc s
  (b.1, b.2.setPC (s.pc + 1))

/-- `FetchWord()` (R37). -/
def fetchWord (s : State) : Word × State :=
  let lo := fetchByte s
  let hi := fetchByte lo.2
  (joinBytes hi.1 lo.1, hi.2)

/-! Stack -/

/-- `0x0100 + SP` (R13, R40). -/
def stackAddress (sp : Byte) : Word := 0x0100 + zext16 sp

/-- `PushByte(v)` (R40). -/
def pushByte (v : Byte) (s : State) : State :=
  (memWrite (stackAddress s.sp) v s).setSP (s.sp - 1)

/-- `PopByte()` (R41). -/
def popByte (s : State) : Byte × State :=
  memRead (stackAddress (s.sp + 1)) (s.setSP (s.sp + 1))

/-- `PushWord(w)`: the high byte first (R42). -/
def pushWord (w : Word) (s : State) : State := pushByte (loByte w) (pushByte (hiByte w) s)

/-- `PopWord()`: the low byte first (R43). -/
def popWord (s : State) : Word × State :=
  let lo := popByte s
  let hi := popByte lo.2
  (joinBytes hi.1 lo.1, hi.2)

/-! The exception -/

/-- `raise UnrecognizedOpcode(addr, op)` (R200): the fault record is written and the core is halted. Nothing is saved
and control goes nowhere (R206). There is no return from it (R203): only reset leaves the halted state. -/
def raiseUnrecognizedOpcode (addr : Word) (op : Byte) (s : State) : State :=
  { s with halted := true, faultAddr := addr, faultOp := op }

end Sys2Proof.Machine
end

