-- ==== Sys2Proof/Machine/Flags.lean ====
section
/-! DEFINITION. Every flag computation of the spec: `SetZN`, the status byte, ADC and SBC, the compares, BIT. -/

namespace Sys2Proof.Machine

/-- `SetZN(v)` (R17). -/
def setZN (v : Byte) (f : Flags) : Flags := { f with z := v == 0x00, n := v.msb }

/-- `PackP()`, bit 7 = N, 6 = V, 5 = U, 4 = B, 3 = D, 2 = I, 1 = Z, 0 = C (R16; the spec's decision D3).
UNVERIFIED, unsafe: log entry 8. -/
def packP (f : Flags) : Byte :=
  BitVec.ofBool f.n ++ BitVec.ofBool f.v ++ BitVec.ofBool f.u ++ BitVec.ofBool f.b ++
    BitVec.ofBool f.d ++ BitVec.ofBool f.i ++ BitVec.ofBool f.z ++ BitVec.ofBool f.c

/-- The flags after a status byte is pulled (R123): bits 4 and 5 are loaded only if `loadBU`. -/
def unpackP (loadBU : Bool) (v : Byte) (f : Flags) : Flags where
  c := v.getLsbD 0
  z := v.getLsbD 1
  i := v.getLsbD 2
  d := v.getLsbD 3
  b := if loadBU then v.getLsbD 4 else f.b
  u := if loadBU then v.getLsbD 5 else f.u
  v := v.getLsbD 6
  n := v.getLsbD 7

/-- `zext_9(a) + zext_9(m) + C` (R170). -/
def addSum (a m : Byte) (carry : Bool) : BitVec 9 :=
  a.setWidth 9 + m.setWidth 9 + (BitVec.ofBool carry).setWidth 9

/-- `sum[7:0]` (R170). -/
def addResult (a m : Byte) (carry : Bool) : Byte := (addSum a m carry).setWidth 8

/-- `sum[8]` (R170). -/
def addCarry (a m : Byte) (carry : Bool) : Bool := (addSum a m carry).getLsbD 8

/-- The operands have the same sign and the result's differs (R170). -/
def addOverflow (a m : Byte) (carry : Bool) : Bool :=
  a.msb == m.msb && (addResult a m carry).msb != a.msb

/-- The flags ADC leaves: C, V, and Z, N of the result; `D` is not read (R170; the spec's decision D6, log entry 11). -/
def addFlags (a m : Byte) (f : Flags) : Flags :=
  setZN (addResult a m f.c) { f with c := addCarry a m f.c, v := addOverflow a m f.c }

/-- `m ^ 0xFF`: SBC adds the one's complement of its operand (R171). -/
def onesComplement (m : Byte) : Byte := m ^^^ 0xFF

/-- The flags of a compare of `r` with `m`: C, Z, N; the incoming C is not read and V is not written (R172 to R174). -/
def compareFlags (r m : Byte) (f : Flags) : Flags :=
  { f with c := decide (m.toNat ≤ r.toNat), z := r == m, n := (r - m).msb }

/-- The flags of BIT: Z from `A & m`, N and V from bits 7 and 6 of the memory operand (R133). -/
def bitFlags (a m : Byte) (f : Flags) : Flags :=
  { f with z := (a &&& m) == 0x00, n := m.getLsbD 7, v := m.getLsbD 6 }

end Sys2Proof.Machine
end

