-- ==== Sys2Proof/Machine/Operands.lean ====
section
/-! DEFINITION. The addressing-mode resolver (R52 to R59, R61) and how an operation uses the resolved operand (R63, R64). -/

namespace Sys2Proof.Machine

/-- An addressing mode that names a memory cell, with its operand bytes (R53 to R58). -/
inductive AddrMode where
  | zeroPage (b : Byte)
  | zeroPageX (b : Byte)
  | zeroPageY (b : Byte)
  | absolute (w : Word)
  | absoluteX (w : Word)
  | absoluteY (w : Word)
  | indirectX (b : Byte)
  | indirectY (b : Byte)
deriving DecidableEq, Repr

/-- The operand of a reading instruction (R64): the immediate byte (R52) or a memory cell. -/
inductive Operand where
  | immediate (v : Byte)
  | memory (m : AddrMode)
deriving DecidableEq, Repr

/-- The effective address `ea` of each mode (R53 to R58). The zero-page sums wrap modulo 256; the absolute sums and the
post-indexed sum are modulo 65536; a zero-page vector at 0x00FF takes its high byte from 0x0100 (log entry 12). -/
def effectiveAddress (m : AddrMode) (s : State) : Word :=
  match m with
  | .zeroPage b => zext16 b
  | .zeroPageX b => zext16 (b + s.x)
  | .zeroPageY b => zext16 (b + s.y)
  | .absolute w => w
  | .absoluteX w => w + zext16 s.x
  | .absoluteY w => w + zext16 s.y
  | .indirectX b => wordAt s (zext16 (b + s.x))
  | .indirectY b => wordAt s (zext16 b) + zext16 s.y

/-- The page-cross indicator `p` (R53 to R58). -/
def pageCrossed (m : AddrMode) (s : State) : Bool :=
  match m with
  | .zeroPage _ => false
  | .zeroPageX _ => false
  | .zeroPageY _ => false
  | .absolute _ => false
  | .absoluteX w => pagesDiffer (w + zext16 s.x) w
  | .absoluteY w => pagesDiffer (w + zext16 s.y) w
  | .indirectX _ => false
  | .indirectY b => pagesDiffer (wordAt s (zext16 b) + zext16 s.y) (wordAt s (zext16 b))

/-- Operand bytes of a mode (R50, R53 to R58). -/
def operandLength (m : AddrMode) : Nat :=
  match m with
  | .zeroPage _ => 1
  | .zeroPageX _ => 1
  | .zeroPageY _ => 1
  | .absolute _ => 2
  | .absoluteX _ => 2
  | .absoluteY _ => 2
  | .indirectX _ => 1
  | .indirectY _ => 1

/-- Cycles of a mode's resolution beyond its operand fetch, without the page-cross cycle: the byte reads of a pointer
and the internal cycle of a zero-page sum (R54, R57, R58, R240). -/
def pointerCycles (m : AddrMode) : Nat :=
  match m with
  | .zeroPage _ => 0
  | .zeroPageX _ => 1
  | .zeroPageY _ => 1
  | .absolute _ => 0
  | .absoluteX _ => 0
  | .absoluteY _ => 0
  | .indirectX _ => 3
  | .indirectY _ => 2

/-- The flat internal cycle that a writing or read-modify-write instruction pays where a reading one pays `p`
(R63, R240; for `STA ($nn),Y` the spec's decision D15, log entry 7). -/
def flatIndexCycles (m : AddrMode) : Nat :=
  match m with
  | .zeroPage _ => 0
  | .zeroPageX _ => 0
  | .zeroPageY _ => 0
  | .absolute _ => 0
  | .absoluteX _ => 1
  | .absoluteY _ => 1
  | .indirectX _ => 0
  | .indirectY _ => 1

/-- The state after a mode is resolved: the operand bytes are fetched and the resolution's cycles charged. A resolver
changes nothing else (R64). -/
def afterResolve (m : AddrMode) (s : State) : State :=
  (s.consume (operandLength m)).charge (pointerCycles m)

/-- The 8-bit operand value of a reading instruction (R52, R64). -/
def operandValue (o : Operand) (s : State) : Byte :=
  match o with
  | .immediate v => v
  | .memory m => byteAt s (effectiveAddress m s)

/-- The state after a reading instruction has its operand: fetches, pointer reads, the page-cross cycle and the data
read are charged (R63, R64, R240). -/
def afterOperand (o : Operand) (s : State) : State :=
  match o with
  | .immediate _ => s.consume 1
  | .memory m => (memRead (effectiveAddress m s) ((afterResolve m s).charge (pageCrossed m s).toNat)).2

/-- `Operand(mode)` (R64): the value and the state after it is read. -/
def readOperand (o : Operand) (s : State) : Byte × State := (operandValue o s, afterOperand o s)

/-- A writing instruction's `ea = EA_<mode>(); MemWrite(ea, 1, v)`: it reads nothing at `ea` (R64). -/
def storeOperand (m : AddrMode) (v : Byte) (s : State) : State :=
  memWrite (effectiveAddress m s) v ((afterResolve m s).charge (flatIndexCycles m))

/-- A read-modify-write instruction: one read, one internal cycle, one write of `f` of the byte read, which is answered
with the state (R64, R140). -/
def modifyOperand (m : AddrMode) (f : Byte → Byte) (s : State) : Byte × State :=
  let got := memRead (effectiveAddress m s) ((afterResolve m s).charge (flatIndexCycles m))
  (f got.1, memWrite (effectiveAddress m s) (f got.1) (got.2.charge 1))

/-- A branch's target, from the address of the instruction after it (R61). -/
def branchTarget (next : Word) (off : Byte) : Word := next + sext16 off

/-- The control unit's opcode fetch, common to every instruction (R51): one `FetchByte`. -/
def afterOpcode (s : State) : State := s.consume 1

end Sys2Proof.Machine
end

