-- ==== Sys2Proof/Machine/Arith.lean ====
section
/-! DEFINITION. Arithmetic with carry and comparisons: the shared operations and one meaning for each instruction. -/

namespace Sys2Proof.Machine

/-- `A <- sum[7:0]` of `A`, the operand and C, with C, V, Z, N (R170); binary whatever `D` is. -/
def adc (o : Operand) (s : State) : State :=
  let got := readOperand o (afterOpcode s)
  (got.2.setA (addResult s.a got.1 s.flags.c)).setFlags (addFlags s.a got.1 s.flags)

/-- ADC of the operand's one's complement (R171). -/
def sbc (o : Operand) (s : State) : State :=
  let got := readOperand o (afterOpcode s)
  let n := onesComplement got.1
  (got.2.setA (addResult s.a n s.flags.c)).setFlags (addFlags s.a n s.flags)

/-- C, Z, N of `A` against the operand; no register is written (R172). -/
def cmp (o : Operand) (s : State) : State :=
  let got := readOperand o (afterOpcode s)
  got.2.setFlags (compareFlags s.a got.1 s.flags)

/-- C, Z, N of `X` against the operand (R173). -/
def cpx (o : Operand) (s : State) : State :=
  let got := readOperand o (afterOpcode s)
  got.2.setFlags (compareFlags s.x got.1 s.flags)

/-- C, Z, N of `Y` against the operand (R174). -/
def cpy (o : Operand) (s : State) : State :=
  let got := readOperand o (afterOpcode s)
  got.2.setFlags (compareFlags s.y got.1 s.flags)

/-- ADC, immediate (R170). -/
def execAdcImm (v : Byte) (s : State) : Result := .next (adc (.immediate v) s)

/-- ADC, zero-page (R170). -/
def execAdcZp (b : Byte) (s : State) : Result := .next (adc (.memory (.zeroPage b)) s)

/-- ADC, zero-page,X (R170). -/
def execAdcZpX (b : Byte) (s : State) : Result := .next (adc (.memory (.zeroPageX b)) s)

/-- ADC, absolute (R170). -/
def execAdcAbs (w : Word) (s : State) : Result := .next (adc (.memory (.absolute w)) s)

/-- ADC, absolute,X (R170). -/
def execAdcAbsX (w : Word) (s : State) : Result := .next (adc (.memory (.absoluteX w)) s)

/-- ADC, absolute,Y (R170). -/
def execAdcAbsY (w : Word) (s : State) : Result := .next (adc (.memory (.absoluteY w)) s)

/-- ADC, (indirect,X) (R170). -/
def execAdcIndX (b : Byte) (s : State) : Result := .next (adc (.memory (.indirectX b)) s)

/-- ADC, (indirect),Y (R170). -/
def execAdcIndY (b : Byte) (s : State) : Result := .next (adc (.memory (.indirectY b)) s)

/-- SBC, immediate (R171). -/
def execSbcImm (v : Byte) (s : State) : Result := .next (sbc (.immediate v) s)

/-- SBC, zero-page (R171). -/
def execSbcZp (b : Byte) (s : State) : Result := .next (sbc (.memory (.zeroPage b)) s)

/-- SBC, zero-page,X (R171). -/
def execSbcZpX (b : Byte) (s : State) : Result := .next (sbc (.memory (.zeroPageX b)) s)

/-- SBC, absolute (R171). -/
def execSbcAbs (w : Word) (s : State) : Result := .next (sbc (.memory (.absolute w)) s)

/-- SBC, absolute,X (R171). -/
def execSbcAbsX (w : Word) (s : State) : Result := .next (sbc (.memory (.absoluteX w)) s)

/-- SBC, absolute,Y (R171). -/
def execSbcAbsY (w : Word) (s : State) : Result := .next (sbc (.memory (.absoluteY w)) s)

/-- SBC, (indirect,X) (R171). -/
def execSbcIndX (b : Byte) (s : State) : Result := .next (sbc (.memory (.indirectX b)) s)

/-- SBC, (indirect),Y (R171). -/
def execSbcIndY (b : Byte) (s : State) : Result := .next (sbc (.memory (.indirectY b)) s)

/-- CMP, immediate (R172). -/
def execCmpImm (v : Byte) (s : State) : Result := .next (cmp (.immediate v) s)

/-- CMP, zero-page (R172). -/
def execCmpZp (b : Byte) (s : State) : Result := .next (cmp (.memory (.zeroPage b)) s)

/-- CMP, zero-page,X (R172). -/
def execCmpZpX (b : Byte) (s : State) : Result := .next (cmp (.memory (.zeroPageX b)) s)

/-- CMP, absolute (R172). -/
def execCmpAbs (w : Word) (s : State) : Result := .next (cmp (.memory (.absolute w)) s)

/-- CMP, absolute,X (R172). -/
def execCmpAbsX (w : Word) (s : State) : Result := .next (cmp (.memory (.absoluteX w)) s)

/-- CMP, absolute,Y (R172). -/
def execCmpAbsY (w : Word) (s : State) : Result := .next (cmp (.memory (.absoluteY w)) s)

/-- CMP, (indirect,X) (R172). -/
def execCmpIndX (b : Byte) (s : State) : Result := .next (cmp (.memory (.indirectX b)) s)

/-- CMP, (indirect),Y (R172). -/
def execCmpIndY (b : Byte) (s : State) : Result := .next (cmp (.memory (.indirectY b)) s)

/-- CPX, immediate (R173). -/
def execCpxImm (v : Byte) (s : State) : Result := .next (cpx (.immediate v) s)

/-- CPX, zero-page (R173). -/
def execCpxZp (b : Byte) (s : State) : Result := .next (cpx (.memory (.zeroPage b)) s)

/-- CPX, absolute (R173). -/
def execCpxAbs (w : Word) (s : State) : Result := .next (cpx (.memory (.absolute w)) s)

/-- CPY, immediate (R174). -/
def execCpyImm (v : Byte) (s : State) : Result := .next (cpy (.immediate v) s)

/-- CPY, zero-page (R174). -/
def execCpyZp (b : Byte) (s : State) : Result := .next (cpy (.memory (.zeroPage b)) s)

/-- CPY, absolute (R174). -/
def execCpyAbs (w : Word) (s : State) : Result := .next (cpy (.memory (.absolute w)) s)

end Sys2Proof.Machine
end

