-- ==== Sys2Proof/Machine/Branch.lean ====
section
/-! DEFINITION. Conditional branches: the shared operations and one meaning for each instruction. -/

namespace Sys2Proof.Machine

/-- The branch operation (R160): the operand byte is fetched in any case; a taken branch costs one more cycle, and
another if its target lies in a page other than that of the instruction after the branch. -/
def branchIf (cond : Bool) (off : Byte) (s : State) : State :=
  let fetched := (afterOpcode s).consume 1
  let target := branchTarget fetched.pc off
  if cond then (fetched.setPC target).charge (1 + (pagesDiffer target fetched.pc).toNat)
  else fetched

/-- BEQ, relative (R161). -/
def execBeq (off : Byte) (s : State) : Result := .next (branchIf s.flags.z off s)

/-- BNE, relative (R162). -/
def execBne (off : Byte) (s : State) : Result := .next (branchIf (!s.flags.z) off s)

/-- BCS, relative (R163). -/
def execBcs (off : Byte) (s : State) : Result := .next (branchIf s.flags.c off s)

/-- BCC, relative (R164). -/
def execBcc (off : Byte) (s : State) : Result := .next (branchIf (!s.flags.c) off s)

/-- BMI, relative (R165). -/
def execBmi (off : Byte) (s : State) : Result := .next (branchIf s.flags.n off s)

/-- BPL, relative (R166). -/
def execBpl (off : Byte) (s : State) : Result := .next (branchIf (!s.flags.n) off s)

/-- BVS, relative (R167). -/
def execBvs (off : Byte) (s : State) : Result := .next (branchIf s.flags.v off s)

/-- BVC, relative (R168). -/
def execBvc (off : Byte) (s : State) : Result := .next (branchIf (!s.flags.v) off s)

end Sys2Proof.Machine
end

