-- ==== Sys2Proof/Machine/Transfer.lean ====
section
/-! DEFINITION. Register transfers: the shared operations and one meaning for each instruction. -/

namespace Sys2Proof.Machine

/-- The opcode fetch and the one internal cycle of an implied register or flag operation (R62, R240). -/
def afterImplied (s : State) : State := (afterOpcode s).charge 1

/-- `SP <- X`, with `SetZN(X)` only if `setsZN` (R115; the spec's decision D11, log entry 10). -/
def transferXToSP (setsZN : Bool) (s : State) : State :=
  ((afterImplied s).setSP s.x).setFlags (if setsZN then setZN s.x s.flags else s.flags)

/-- TAX, implied (R110). -/
def execTax (s : State) : Result := .next (((afterImplied s).setX s.a).setFlags (setZN s.a s.flags))

/-- TAY, implied (R111). -/
def execTay (s : State) : Result := .next (((afterImplied s).setY s.a).setFlags (setZN s.a s.flags))

/-- TXA, implied (R112). -/
def execTxa (s : State) : Result := .next (((afterImplied s).setA s.x).setFlags (setZN s.x s.flags))

/-- TYA, implied (R113). -/
def execTya (s : State) : Result := .next (((afterImplied s).setA s.y).setFlags (setZN s.y s.flags))

/-- TSX, implied (R114). -/
def execTsx (s : State) : Result := .next (((afterImplied s).setX s.sp).setFlags (setZN s.sp s.flags))

/-- TXS, implied (R115). -/
def execTxs (s : State) : Result := .next (transferXToSP Config.txsSetsZN s)

end Sys2Proof.Machine
end

