-- ==== Sys2Proof/Machine/FlagNop.lean ====
section
/-! DEFINITION. Status-flag instructions and NOP: the shared operations and one meaning for each instruction. -/

namespace Sys2Proof.Machine

/-- CLC, implied (R180). -/
def execClc (s : State) : Result := .next ((afterImplied s).setFlags { s.flags with c := false })

/-- CLD, implied (R181). -/
def execCld (s : State) : Result := .next ((afterImplied s).setFlags { s.flags with d := false })

/-- CLI, implied (R182). -/
def execCli (s : State) : Result := .next ((afterImplied s).setFlags { s.flags with i := false })

/-- CLV, implied (R183). -/
def execClv (s : State) : Result := .next ((afterImplied s).setFlags { s.flags with v := false })

/-- SEC, implied (R184). -/
def execSec (s : State) : Result := .next ((afterImplied s).setFlags { s.flags with c := true })

/-- SED, implied (R185). -/
def execSed (s : State) : Result := .next ((afterImplied s).setFlags { s.flags with d := true })

/-- SEI, implied (R186). -/
def execSei (s : State) : Result := .next ((afterImplied s).setFlags { s.flags with i := true })

/-- NOP, implied (R187). -/
def execNop (s : State) : Result := .next (afterImplied s)

end Sys2Proof.Machine
end

