-- ==== Sys2Proof/Machine/IncDec.lean ====
section
/-! DEFINITION. Increment and decrement: the shared operations and one meaning for each instruction. -/

namespace Sys2Proof.Machine

/-- `m = MemRead(ea, 1); r = f(m); MemWrite(ea, 1, r); SetZN(r)`, the common form of R140 and R141. -/
def modifyMemory (f : Byte → Byte) (m : AddrMode) (s : State) : State :=
  let done := modifyOperand m f (afterOpcode s)
  done.2.setFlags (setZN done.1 s.flags)

/-- `r = m +_8 1` (R140). -/
def incMemory (m : AddrMode) (s : State) : State := modifyMemory (fun v => v + 1) m s

/-- `r = m -_8 1` (R141). -/
def decMemory (m : AddrMode) (s : State) : State := modifyMemory (fun v => v - 1) m s

/-- INC, zero-page (R140). -/
def execIncZp (b : Byte) (s : State) : Result := .next (incMemory (.zeroPage b) s)

/-- INC, zero-page,X (R140). -/
def execIncZpX (b : Byte) (s : State) : Result := .next (incMemory (.zeroPageX b) s)

/-- INC, absolute (R140). -/
def execIncAbs (w : Word) (s : State) : Result := .next (incMemory (.absolute w) s)

/-- INC, absolute,X (R140). -/
def execIncAbsX (w : Word) (s : State) : Result := .next (incMemory (.absoluteX w) s)

/-- DEC, zero-page (R141). -/
def execDecZp (b : Byte) (s : State) : Result := .next (decMemory (.zeroPage b) s)

/-- DEC, zero-page,X (R141). -/
def execDecZpX (b : Byte) (s : State) : Result := .next (decMemory (.zeroPageX b) s)

/-- DEC, absolute (R141). -/
def execDecAbs (w : Word) (s : State) : Result := .next (decMemory (.absolute w) s)

/-- DEC, absolute,X (R141). -/
def execDecAbsX (w : Word) (s : State) : Result := .next (decMemory (.absoluteX w) s)

/-- INX, implied (R142). -/
def execInx (s : State) : Result := .next (((afterImplied s).setX (s.x + 1)).setFlags (setZN (s.x + 1) s.flags))

/-- INY, implied (R143). -/
def execIny (s : State) : Result := .next (((afterImplied s).setY (s.y + 1)).setFlags (setZN (s.y + 1) s.flags))

/-- DEX, implied (R144). -/
def execDex (s : State) : Result := .next (((afterImplied s).setX (s.x - 1)).setFlags (setZN (s.x - 1) s.flags))

/-- DEY, implied (R145). -/
def execDey (s : State) : Result := .next (((afterImplied s).setY (s.y - 1)).setFlags (setZN (s.y - 1) s.flags))

end Sys2Proof.Machine
end

