-- ==== Sys2Proof/Machine/JumpCall.lean ====
section
/-! DEFINITION. Jumps, call and return: the shared operations and one meaning for each instruction. -/

namespace Sys2Proof.Machine

/-- `target = FetchWord(); PC <- target` (R150). -/
def jumpTo (w : Word) (s : State) : State := ((afterOpcode s).consume 2).setPC w

/-- `ptr = FetchWord(); PC <- ReadWord(ptr)` (R59, R151): the high byte comes from `ptr +_16 1` even when `ptr[7:0] = 0xFF`
(the spec's decision D8, log entry 13). -/
def jumpThrough (ptr : Word) (s : State) : State :=
  let target := readWord ptr ((afterOpcode s).consume 2)
  target.2.setPC target.1

/-- The operand is fetched, then the address of the JSR's last byte is pushed, then `PC <- target` (R152; the spec's
decision D19, log entry 14). -/
def callTo (w : Word) (s : State) : State :=
  let fetched := (afterOpcode s).consume 2
  ((pushWord (fetched.pc - 1) fetched).setPC w).charge 1

/-- `w = PopWord(); PC <- w +_16 1` (R153). -/
def returnFromCall (s : State) : State :=
  let got := popWord (afterOpcode s)
  (got.2.setPC (got.1 + 1)).charge 3

/-- JMP, absolute (R150). -/
def execJmpAbs (w : Word) (s : State) : Result := .next (jumpTo w s)

/-- JMP, indirect (R151). -/
def execJmpInd (w : Word) (s : State) : Result := .next (jumpThrough w s)

/-- JSR, absolute (R152). -/
def execJsr (w : Word) (s : State) : Result := .next (callTo w s)

/-- RTS, implied (R153). -/
def execRts (s : State) : Result := .next (returnFromCall s)

end Sys2Proof.Machine
end

