-- ==== Sys2Proof/Machine/LoadStore.lean ====
section
/-! DEFINITION. Load and store: the shared operations and one meaning for each instruction. -/

namespace Sys2Proof.Machine

/-- `m = Operand(mode); A <- m; SetZN(A)` (R100). -/
def lda (o : Operand) (s : State) : State :=
  let got := readOperand o (afterOpcode s)
  (got.2.setA got.1).setFlags (setZN got.1 s.flags)

/-- `m = Operand(mode); X <- m; SetZN(X)` (R101). -/
def ldx (o : Operand) (s : State) : State :=
  let got := readOperand o (afterOpcode s)
  (got.2.setX got.1).setFlags (setZN got.1 s.flags)

/-- `m = Operand(mode); Y <- m; SetZN(Y)` (R102). -/
def ldy (o : Operand) (s : State) : State :=
  let got := readOperand o (afterOpcode s)
  (got.2.setY got.1).setFlags (setZN got.1 s.flags)

/-- `ea = EA_<mode>(); MemWrite(ea, 1, A)` (R103). -/
def sta (m : AddrMode) (s : State) : State := storeOperand m s.a (afterOpcode s)

/-- `ea = EA_<mode>(); MemWrite(ea, 1, X)` (R104). -/
def stx (m : AddrMode) (s : State) : State := storeOperand m s.x (afterOpcode s)

/-- `ea = EA_<mode>(); MemWrite(ea, 1, Y)` (R105). -/
def sty (m : AddrMode) (s : State) : State := storeOperand m s.y (afterOpcode s)

/-- LDA, immediate (R100). -/
def execLdaImm (v : Byte) (s : State) : Result := .next (lda (.immediate v) s)

/-- LDA, zero-page (R100). -/
def execLdaZp (b : Byte) (s : State) : Result := .next (lda (.memory (.zeroPage b)) s)

/-- LDA, zero-page,X (R100). -/
def execLdaZpX (b : Byte) (s : State) : Result := .next (lda (.memory (.zeroPageX b)) s)

/-- LDA, absolute (R100). -/
def execLdaAbs (w : Word) (s : State) : Result := .next (lda (.memory (.absolute w)) s)

/-- LDA, absolute,X (R100). -/
def execLdaAbsX (w : Word) (s : State) : Result := .next (lda (.memory (.absoluteX w)) s)

/-- LDA, absolute,Y (R100). -/
def execLdaAbsY (w : Word) (s : State) : Result := .next (lda (.memory (.absoluteY w)) s)

/-- LDA, (indirect,X) (R100). -/
def execLdaIndX (b : Byte) (s : State) : Result := .next (lda (.memory (.indirectX b)) s)

/-- LDA, (indirect),Y (R100). -/
def execLdaIndY (b : Byte) (s : State) : Result := .next (lda (.memory (.indirectY b)) s)

/-- LDX, immediate (R101). -/
def execLdxImm (v : Byte) (s : State) : Result := .next (ldx (.immediate v) s)

/-- LDX, zero-page (R101). -/
def execLdxZp (b : Byte) (s : State) : Result := .next (ldx (.memory (.zeroPage b)) s)

/-- LDX, zero-page,Y (R101). -/
def execLdxZpY (b : Byte) (s : State) : Result := .next (ldx (.memory (.zeroPageY b)) s)

/-- LDX, absolute (R101). -/
def execLdxAbs (w : Word) (s : State) : Result := .next (ldx (.memory (.absolute w)) s)

/-- LDX, absolute,Y (R101). -/
def execLdxAbsY (w : Word) (s : State) : Result := .next (ldx (.memory (.absoluteY w)) s)

/-- LDY, immediate (R102). -/
def execLdyImm (v : Byte) (s : State) : Result := .next (ldy (.immediate v) s)

/-- LDY, zero-page (R102). -/
def execLdyZp (b : Byte) (s : State) : Result := .next (ldy (.memory (.zeroPage b)) s)

/-- LDY, zero-page,X (R102). -/
def execLdyZpX (b : Byte) (s : State) : Result := .next (ldy (.memory (.zeroPageX b)) s)

/-- LDY, absolute (R102). -/
def execLdyAbs (w : Word) (s : State) : Result := .next (ldy (.memory (.absolute w)) s)

/-- LDY, absolute,X (R102). -/
def execLdyAbsX (w : Word) (s : State) : Result := .next (ldy (.memory (.absoluteX w)) s)

/-- STA, zero-page (R103). -/
def execStaZp (b : Byte) (s : State) : Result := .next (sta (.zeroPage b) s)

/-- STA, zero-page,X (R103). -/
def execStaZpX (b : Byte) (s : State) : Result := .next (sta (.zeroPageX b) s)

/-- STA, absolute (R103). -/
def execStaAbs (w : Word) (s : State) : Result := .next (sta (.absolute w) s)

/-- STA, absolute,X (R103). -/
def execStaAbsX (w : Word) (s : State) : Result := .next (sta (.absoluteX w) s)

/-- STA, absolute,Y (R103). -/
def execStaAbsY (w : Word) (s : State) : Result := .next (sta (.absoluteY w) s)

/-- STA, (indirect,X) (R103). -/
def execStaIndX (b : Byte) (s : State) : Result := .next (sta (.indirectX b) s)

/-- STA, (indirect),Y (R103). -/
def execStaIndY (b : Byte) (s : State) : Result := .next (sta (.indirectY b) s)

/-- STX, zero-page (R104). -/
def execStxZp (b : Byte) (s : State) : Result := .next (stx (.zeroPage b) s)

/-- STX, zero-page,Y (R104). -/
def execStxZpY (b : Byte) (s : State) : Result := .next (stx (.zeroPageY b) s)

/-- STX, absolute (R104). -/
def execStxAbs (w : Word) (s : State) : Result := .next (stx (.absolute w) s)

/-- STY, zero-page (R105). -/
def execStyZp (b : Byte) (s : State) : Result := .next (sty (.zeroPage b) s)

/-- STY, zero-page,X (R105). -/
def execStyZpX (b : Byte) (s : State) : Result := .next (sty (.zeroPageX b) s)

/-- STY, absolute (R105). -/
def execStyAbs (w : Word) (s : State) : Result := .next (sty (.absolute w) s)

end Sys2Proof.Machine
end

