-- ==== Sys2Proof/Machine/Logical.lean ====
section
/-! DEFINITION. Logical: the shared operations and one meaning for each instruction. -/

namespace Sys2Proof.Machine

/-- `m = Operand(mode); A <- f(A, m); SetZN(A)`, the common form of R130 to R132. -/
def logical (f : Byte → Byte → Byte) (o : Operand) (s : State) : State :=
  let got := readOperand o (afterOpcode s)
  (got.2.setA (f s.a got.1)).setFlags (setZN (f s.a got.1) s.flags)

/-- `A <- A & m` (R130). -/
def andA (o : Operand) (s : State) : State := logical (fun a m => a &&& m) o s

/-- `A <- A | m` (R131). -/
def oraA (o : Operand) (s : State) : State := logical (fun a m => a ||| m) o s

/-- `A <- A ^ m` (R132). -/
def eorA (o : Operand) (s : State) : State := logical (fun a m => a ^^^ m) o s

/-- `m = MemRead(ea, 1)`, then Z, N, V; the accumulator is not modified (R133). -/
def bitTest (m : AddrMode) (s : State) : State :=
  let got := readOperand (.memory m) (afterOpcode s)
  got.2.setFlags (bitFlags s.a got.1 s.flags)

/-- AND, immediate (R130). -/
def execAndImm (v : Byte) (s : State) : Result := .next (andA (.immediate v) s)

/-- AND, zero-page (R130). -/
def execAndZp (b : Byte) (s : State) : Result := .next (andA (.memory (.zeroPage b)) s)

/-- AND, zero-page,X (R130). -/
def execAndZpX (b : Byte) (s : State) : Result := .next (andA (.memory (.zeroPageX b)) s)

/-- AND, absolute (R130). -/
def execAndAbs (w : Word) (s : State) : Result := .next (andA (.memory (.absolute w)) s)

/-- AND, absolute,X (R130). -/
def execAndAbsX (w : Word) (s : State) : Result := .next (andA (.memory (.absoluteX w)) s)

/-- AND, absolute,Y (R130). -/
def execAndAbsY (w : Word) (s : State) : Result := .next (andA (.memory (.absoluteY w)) s)

/-- AND, (indirect,X) (R130). -/
def execAndIndX (b : Byte) (s : State) : Result := .next (andA (.memory (.indirectX b)) s)

/-- AND, (indirect),Y (R130). -/
def execAndIndY (b : Byte) (s : State) : Result := .next (andA (.memory (.indirectY b)) s)

/-- ORA, immediate (R131). -/
def execOraImm (v : Byte) (s : State) : Result := .next (oraA (.immediate v) s)

/-- ORA, zero-page (R131). -/
def execOraZp (b : Byte) (s : State) : Result := .next (oraA (.memory (.zeroPage b)) s)

/-- ORA, zero-page,X (R131). -/
def execOraZpX (b : Byte) (s : State) : Result := .next (oraA (.memory (.zeroPageX b)) s)

/-- ORA, absolute (R131). -/
def execOraAbs (w : Word) (s : State) : Result := .next (oraA (.memory (.absolute w)) s)

/-- ORA, absolute,X (R131). -/
def execOraAbsX (w : Word) (s : State) : Result := .next (oraA (.memory (.absoluteX w)) s)

/-- ORA, absolute,Y (R131). -/
def execOraAbsY (w : Word) (s : State) : Result := .next (oraA (.memory (.absoluteY w)) s)

/-- ORA, (indirect,X) (R131). -/
def execOraIndX (b : Byte) (s : State) : Result := .next (oraA (.memory (.indirectX b)) s)

/-- ORA, (indirect),Y (R131). -/
def execOraIndY (b : Byte) (s : State) : Result := .next (oraA (.memory (.indirectY b)) s)

/-- EOR, immediate (R132). -/
def execEorImm (v : Byte) (s : State) : Result := .next (eorA (.immediate v) s)

/-- EOR, zero-page (R132). -/
def execEorZp (b : Byte) (s : State) : Result := .next (eorA (.memory (.zeroPage b)) s)

/-- EOR, zero-page,X (R132). -/
def execEorZpX (b : Byte) (s : State) : Result := .next (eorA (.memory (.zeroPageX b)) s)

/-- EOR, absolute (R132). -/
def execEorAbs (w : Word) (s : State) : Result := .next (eorA (.memory (.absolute w)) s)

/-- EOR, absolute,X (R132). -/
def execEorAbsX (w : Word) (s : State) : Result := .next (eorA (.memory (.absoluteX w)) s)

/-- EOR, absolute,Y (R132). -/
def execEorAbsY (w : Word) (s : State) : Result := .next (eorA (.memory (.absoluteY w)) s)

/-- EOR, (indirect,X) (R132). -/
def execEorIndX (b : Byte) (s : State) : Result := .next (eorA (.memory (.indirectX b)) s)

/-- EOR, (indirect),Y (R132). -/
def execEorIndY (b : Byte) (s : State) : Result := .next (eorA (.memory (.indirectY b)) s)

/-- BIT, zero-page (R133). -/
def execBitZp (b : Byte) (s : State) : Result := .next (bitTest (.zeroPage b) s)

/-- BIT, absolute (R133). -/
def execBitAbs (w : Word) (s : State) : Result := .next (bitTest (.absolute w) s)

end Sys2Proof.Machine
end

