-- ==== Sys2Proof/Machine/Stack.lean ====
section
/-! DEFINITION. Stack: the shared operations and one meaning for each instruction. -/

namespace Sys2Proof.Machine

/-- `PushByte(A)` (R120). -/
def pushA (s : State) : State := (pushByte s.a (afterOpcode s)).charge 1

/-- `PushByte(PackP() | forced)` (R121; the spec's decision D4, log entry 9). -/
def pushStatus (forced : Byte) (s : State) : State :=
  (pushByte (packP s.flags ||| forced) (afterOpcode s)).charge 1

/-- `A <- PopByte(); SetZN(A)` (R122; the spec's decision D11, log entry 10). -/
def pullA (s : State) : State :=
  let got := popByte (afterOpcode s)
  ((got.2.setA got.1).setFlags (setZN got.1 s.flags)).charge 2

/-- `v = PopByte()`, then the flags from `v`, `B` and `U` among them only if `loadBU` (R123; the spec's decision D4, log
entry 9). -/
def pullStatus (loadBU : Bool) (s : State) : State :=
  let got := popByte (afterOpcode s)
  (got.2.setFlags (unpackP loadBU got.1 s.flags)).charge 2

/-- PHA, implied (R120). -/
def execPha (s : State) : Result := .next (pushA s)

/-- PHP, implied (R121). -/
def execPhp (s : State) : Result := .next (pushStatus Config.phpForcedBits s)

/-- PLA, implied (R122). -/
def execPla (s : State) : Result := .next (pullA s)

/-- PLP, implied (R123). -/
def execPlp (s : State) : Result := .next (pullStatus Config.plpWritesBU s)

end Sys2Proof.Machine
end

