-- ==== Sys2Proof/Syntax.lean ====
section
/-! DEFINITION. The instructions: one constructor for each of the 129 rows of spec/opcode_table.json (R60), its name the
row's mnemonic and, where the mnemonic has several rows, the row's addressing mode. `v` is an immediate byte, `b` a
zero-page operand byte, `w` the 16-bit operand of a three-byte instruction, `off` a branch displacement. -/

namespace Sys2Proof

inductive Instr where
  -- LDA, rule R100
  | ldaImm (v : Byte)
  | ldaZp (b : Byte)
  | ldaZpX (b : Byte)
  | ldaAbs (w : Word)
  | ldaAbsX (w : Word)
  | ldaAbsY (w : Word)
  | ldaIndX (b : Byte)
  | ldaIndY (b : Byte)
  -- LDX, rule R101
  | ldxImm (v : Byte)
  | ldxZp (b : Byte)
  | ldxZpY (b : Byte)
  | ldxAbs (w : Word)
  | ldxAbsY (w : Word)
  -- LDY, rule R102
  | ldyImm (v : Byte)
  | ldyZp (b : Byte)
  | ldyZpX (b : Byte)
  | ldyAbs (w : Word)
  | ldyAbsX (w : Word)
  -- STA, rule R103
  | staZp (b : Byte)
  | staZpX (b : Byte)
  | staAbs (w : Word)
  | staAbsX (w : Word)
  | staAbsY (w : Word)
  | staIndX (b : Byte)
  | staIndY (b : Byte)
  -- STX, rule R104
  | stxZp (b : Byte)
  | stxZpY (b : Byte)
  | stxAbs (w : Word)
  -- STY, rule R105
  | styZp (b : Byte)
  | styZpX (b : Byte)
  | styAbs (w : Word)
  -- TAX, rule R110
  | tax
  -- TAY, rule R111
  | tay
  -- TXA, rule R112
  | txa
  -- TYA, rule R113
  | tya
  -- TSX, rule R114
  | tsx
  -- TXS, rule R115
  | txs
  -- PHA, rule R120
  | pha
  -- PHP, rule R121
  | php
  -- PLA, rule R122
  | pla
  -- PLP, rule R123
  | plp
  -- AND, rule R130
  | andImm (v : Byte)
  | andZp (b : Byte)
  | andZpX (b : Byte)
  | andAbs (w : Word)
  | andAbsX (w : Word)
  | andAbsY (w : Word)
  | andIndX (b : Byte)
  | andIndY (b : Byte)
  -- ORA, rule R131
  | oraImm (v : Byte)
  | oraZp (b : Byte)
  | oraZpX (b : Byte)
  | oraAbs (w : Word)
  | oraAbsX (w : Word)
  | oraAbsY (w : Word)
  | oraIndX (b : Byte)
  | oraIndY (b : Byte)
  -- EOR, rule R132
  | eorImm (v : Byte)
  | eorZp (b : Byte)
  | eorZpX (b : Byte)
  | eorAbs (w : Word)
  | eorAbsX (w : Word)
  | eorAbsY (w : Word)
  | eorIndX (b : Byte)
  | eorIndY (b : Byte)
  -- BIT, rule R133
  | bitZp (b : Byte)
  | bitAbs (w : Word)
  -- INC, rule R140
  | incZp (b : Byte)
  | incZpX (b : Byte)
  | incAbs (w : Word)
  | incAbsX (w : Word)
  -- DEC, rule R141
  | decZp (b : Byte)
  | decZpX (b : Byte)
  | decAbs (w : Word)
  | decAbsX (w : Word)
  -- INX, rule R142
  | inx
  -- INY, rule R143
  | iny
  -- DEX, rule R144
  | dex
  -- DEY, rule R145
  | dey
  -- JMP, rule R150
  | jmpAbs (w : Word)
  -- JMP, rule R151
  | jmpInd (w : Word)
  -- JSR, rule R152
  | jsr (w : Word)
  -- RTS, rule R153
  | rts
  -- BEQ, rule R161
  | beq (off : Byte)
  -- BNE, rule R162
  | bne (off : Byte)
  -- BCS, rule R163
  | bcs (off : Byte)
  -- BCC, rule R164
  | bcc (off : Byte)
  -- BMI, rule R165
  | bmi (off : Byte)
  -- BPL, rule R166
  | bpl (off : Byte)
  -- BVS, rule R167
  | bvs (off : Byte)
  -- BVC, rule R168
  | bvc (off : Byte)
  -- ADC, rule R170
  | adcImm (v : Byte)
  | adcZp (b : Byte)
  | adcZpX (b : Byte)
  | adcAbs (w : Word)
  | adcAbsX (w : Word)
  | adcAbsY (w : Word)
  | adcIndX (b : Byte)
  | adcIndY (b : Byte)
  -- SBC, rule R171
  | sbcImm (v : Byte)
  | sbcZp (b : Byte)
  | sbcZpX (b : Byte)
  | sbcAbs (w : Word)
  | sbcAbsX (w : Word)
  | sbcAbsY (w : Word)
  | sbcIndX (b : Byte)
  | sbcIndY (b : Byte)
  -- CMP, rule R172
  | cmpImm (v : Byte)
  | cmpZp (b : Byte)
  | cmpZpX (b : Byte)
  | cmpAbs (w : Word)
  | cmpAbsX (w : Word)
  | cmpAbsY (w : Word)
  | cmpIndX (b : Byte)
  | cmpIndY (b : Byte)
  -- CPX, rule R173
  | cpxImm (v : Byte)
  | cpxZp (b : Byte)
  | cpxAbs (w : Word)
  -- CPY, rule R174
  | cpyImm (v : Byte)
  | cpyZp (b : Byte)
  | cpyAbs (w : Word)
  -- CLC, rule R180
  | clc
  -- CLD, rule R181
  | cld
  -- CLI, rule R182
  | cli
  -- CLV, rule R183
  | clv
  -- SEC, rule R184
  | sec
  -- SED, rule R185
  | sed
  -- SEI, rule R186
  | sei
  -- NOP, rule R187
  | nop
deriving DecidableEq, Repr

end Sys2Proof
end

