-- ==== Sys2Proof/WellFormed.lean ====
section
/-! DEFINITION. The checks on what is handed to the core: instructions and `load_program` images. -/

namespace Sys2Proof

/-- Every instruction term is well formed: a constructor fixes the (operation, mode) pair and R65 says "every value of
`b1` and `b2` is legal for every opcode", so there is nothing to check. -/
abbrev Instr.WellFormed (_ : Instr) : Prop := True

/-- The address a `load_program` image names in its first two bytes, low byte first (R231). -/
def imageBase : List Byte → Word
  | b0 :: b1 :: _ => Machine.joinBytes b1 b0
  | _ => 0

/-- The first half of `load_program`'s precondition: the image holds a load address, `n >= 2` (R231). -/
def imageHasAddress (bytes : List Byte) : Bool := decide (2 ≤ bytes.length)

/-- The second half: the body ends at or below 0xFFFF, `base + (n - 2) <= 65536` (R231). -/
def imageFits (bytes : List Byte) : Bool := decide ((imageBase bytes).toNat + (bytes.length - 2) ≤ 65536)

end Sys2Proof
end

