-- ==== Sys2Proof/Decode.lean ====
section
/-! DEFINITION. The opcode map (R51, R60, R65), the decoder on any bytes, the encoder from the same map, and the
host's view of an opcode-table word. The opcode byte alone decides operation, mode and length (R51, R66). The byte values
are the spec's decision D1 and the mode sets its decision D2: UNVERIFIED, unsafe, log entry 6. -/

namespace Sys2Proof

open Sys2Proof.Machine (joinBytes loByte hiByte)

/-- The instruction whose bytes are `op`, `b1`, `b2` in memory order (R50, R51, R60); a byte the instruction does not have
is not looked at. `none`: `op` is an unrecognised opcode (R65). -/
def decodeAt (op b1 b2 : Byte) : Option Instr :=
  match op.toNat with
  | 0xA9 => some (.ldaImm b1)
  | 0xA5 => some (.ldaZp b1)
  | 0xB5 => some (.ldaZpX b1)
  | 0xAD => some (.ldaAbs (joinBytes b2 b1))
  | 0xBD => some (.ldaAbsX (joinBytes b2 b1))
  | 0xB9 => some (.ldaAbsY (joinBytes b2 b1))
  | 0xA1 => some (.ldaIndX b1)
  | 0xB1 => some (.ldaIndY b1)
  | 0xA2 => some (.ldxImm b1)
  | 0xA6 => some (.ldxZp b1)
  | 0xB6 => some (.ldxZpY b1)
  | 0xAE => some (.ldxAbs (joinBytes b2 b1))
  | 0xBE => some (.ldxAbsY (joinBytes b2 b1))
  | 0xA0 => some (.ldyImm b1)
  | 0xA4 => some (.ldyZp b1)
  | 0xB4 => some (.ldyZpX b1)
  | 0xAC => some (.ldyAbs (joinBytes b2 b1))
  | 0xBC => some (.ldyAbsX (joinBytes b2 b1))
  | 0x85 => some (.staZp b1)
  | 0x95 => some (.staZpX b1)
  | 0x8D => some (.staAbs (joinBytes b2 b1))
  | 0x9D => some (.staAbsX (joinBytes b2 b1))
  | 0x99 => some (.staAbsY (joinBytes b2 b1))
  | 0x81 => some (.staIndX b1)
  | 0x91 => some (.staIndY b1)
  | 0x86 => some (.stxZp b1)
  | 0x96 => some (.stxZpY b1)
  | 0x8E => some (.stxAbs (joinBytes b2 b1))
  | 0x84 => some (.styZp b1)
  | 0x94 => some (.styZpX b1)
  | 0x8C => some (.styAbs (joinBytes b2 b1))
  | 0xAA => some .tax
  | 0xA8 => some .tay
  | 0x8A => some .txa
  | 0x98 => some .tya
  | 0xBA => some .tsx
  | 0x9A => some .txs
  | 0x48 => some .pha
  | 0x08 => some .php
  | 0x68 => some .pla
  | 0x28 => some .plp
  | 0x29 => some (.andImm b1)
  | 0x25 => some (.andZp b1)
  | 0x35 => some (.andZpX b1)
  | 0x2D => some (.andAbs (joinBytes b2 b1))
  | 0x3D => some (.andAbsX (joinBytes b2 b1))
  | 0x39 => some (.andAbsY (joinBytes b2 b1))
  | 0x21 => some (.andIndX b1)
  | 0x31 => some (.andIndY b1)
  | 0x09 => some (.oraImm b1)
  | 0x05 => some (.oraZp b1)
  | 0x15 => some (.oraZpX b1)
  | 0x0D => some (.oraAbs (joinBytes b2 b1))
  | 0x1D => some (.oraAbsX (joinBytes b2 b1))
  | 0x19 => some (.oraAbsY (joinBytes b2 b1))
  | 0x01 => some (.oraIndX b1)
  | 0x11 => some (.oraIndY b1)
  | 0x49 => some (.eorImm b1)
  | 0x45 => some (.eorZp b1)
  | 0x55 => some (.eorZpX b1)
  | 0x4D => some (.eorAbs (joinBytes b2 b1))
  | 0x5D => some (.eorAbsX (joinBytes b2 b1))
  | 0x59 => some (.eorAbsY (joinBytes b2 b1))
  | 0x41 => some (.eorIndX b1)
  | 0x51 => some (.eorIndY b1)
  | 0x24 => some (.bitZp b1)
  | 0x2C => some (.bitAbs (joinBytes b2 b1))
  | 0xE6 => some (.incZp b1)
  | 0xF6 => some (.incZpX b1)
  | 0xEE => some (.incAbs (joinBytes b2 b1))
  | 0xFE => some (.incAbsX (joinBytes b2 b1))
  | 0xC6 => some (.decZp b1)
  | 0xD6 => some (.decZpX b1)
  | 0xCE => some (.decAbs (joinBytes b2 b1))
  | 0xDE => some (.decAbsX (joinBytes b2 b1))
  | 0xE8 => some .inx
  | 0xC8 => some .iny
  | 0xCA => some .dex
  | 0x88 => some .dey
  | 0x4C => some (.jmpAbs (joinBytes b2 b1))
  | 0x6C => some (.jmpInd (joinBytes b2 b1))
  | 0x20 => some (.jsr (joinBytes b2 b1))
  | 0x60 => some .rts
  | 0xF0 => some (.beq b1)
  | 0xD0 => some (.bne b1)
  | 0xB0 => some (.bcs b1)
  | 0x90 => some (.bcc b1)
  | 0x30 => some (.bmi b1)
  | 0x10 => some (.bpl b1)
  | 0x70 => some (.bvs b1)
  | 0x50 => some (.bvc b1)
  | 0x69 => some (.adcImm b1)
  | 0x65 => some (.adcZp b1)
  | 0x75 => some (.adcZpX b1)
  | 0x6D => some (.adcAbs (joinBytes b2 b1))
  | 0x7D => some (.adcAbsX (joinBytes b2 b1))
  | 0x79 => some (.adcAbsY (joinBytes b2 b1))
  | 0x61 => some (.adcIndX b1)
  | 0x71 => some (.adcIndY b1)
  | 0xE9 => some (.sbcImm b1)
  | 0xE5 => some (.sbcZp b1)
  | 0xF5 => some (.sbcZpX b1)
  | 0xED => some (.sbcAbs (joinBytes b2 b1))
  | 0xFD => some (.sbcAbsX (joinBytes b2 b1))
  | 0xF9 => some (.sbcAbsY (joinBytes b2 b1))
  | 0xE1 => some (.sbcIndX b1)
  | 0xF1 => some (.sbcIndY b1)
  | 0xC9 => some (.cmpImm b1)
  | 0xC5 => some (.cmpZp b1)
  | 0xD5 => some (.cmpZpX b1)
  | 0xCD => some (.cmpAbs (joinBytes b2 b1))
  | 0xDD => some (.cmpAbsX (joinBytes b2 b1))
  | 0xD9 => some (.cmpAbsY (joinBytes b2 b1))
  | 0xC1 => some (.cmpIndX b1)
  | 0xD1 => some (.cmpIndY b1)
  | 0xE0 => some (.cpxImm b1)
  | 0xE4 => some (.cpxZp b1)
  | 0xEC => some (.cpxAbs (joinBytes b2 b1))
  | 0xC0 => some (.cpyImm b1)
  | 0xC4 => some (.cpyZp b1)
  | 0xCC => some (.cpyAbs (joinBytes b2 b1))
  | 0x18 => some .clc
  | 0xD8 => some .cld
  | 0x58 => some .cli
  | 0xB8 => some .clv
  | 0x38 => some .sec
  | 0xF8 => some .sed
  | 0x78 => some .sei
  | 0xEA => some .nop
  | _ => none

/-- The bytes of an instruction, the first at the lowest address (R50; a word operand low byte first, R34, R37). -/
def encode (i : Instr) : List Byte :=
  match i with
  | .ldaImm v => [0xA9, v]
  | .ldaZp b => [0xA5, b]
  | .ldaZpX b => [0xB5, b]
  | .ldaAbs w => [0xAD, loByte w, hiByte w]
  | .ldaAbsX w => [0xBD, loByte w, hiByte w]
  | .ldaAbsY w => [0xB9, loByte w, hiByte w]
  | .ldaIndX b => [0xA1, b]
  | .ldaIndY b => [0xB1, b]
  | .ldxImm v => [0xA2, v]
  | .ldxZp b => [0xA6, b]
  | .ldxZpY b => [0xB6, b]
  | .ldxAbs w => [0xAE, loByte w, hiByte w]
  | .ldxAbsY w => [0xBE, loByte w, hiByte w]
  | .ldyImm v => [0xA0, v]
  | .ldyZp b => [0xA4, b]
  | .ldyZpX b => [0xB4, b]
  | .ldyAbs w => [0xAC, loByte w, hiByte w]
  | .ldyAbsX w => [0xBC, loByte w, hiByte w]
  | .staZp b => [0x85, b]
  | .staZpX b => [0x95, b]
  | .staAbs w => [0x8D, loByte w, hiByte w]
  | .staAbsX w => [0x9D, loByte w, hiByte w]
  | .staAbsY w => [0x99, loByte w, hiByte w]
  | .staIndX b => [0x81, b]
  | .staIndY b => [0x91, b]
  | .stxZp b => [0x86, b]
  | .stxZpY b => [0x96, b]
  | .stxAbs w => [0x8E, loByte w, hiByte w]
  | .styZp b => [0x84, b]
  | .styZpX b => [0x94, b]
  | .styAbs w => [0x8C, loByte w, hiByte w]
  | .tax => [0xAA]
  | .tay => [0xA8]
  | .txa => [0x8A]
  | .tya => [0x98]
  | .tsx => [0xBA]
  | .txs => [0x9A]
  | .pha => [0x48]
  | .php => [0x08]
  | .pla => [0x68]
  | .plp => [0x28]
  | .andImm v => [0x29, v]
  | .andZp b => [0x25, b]
  | .andZpX b => [0x35, b]
  | .andAbs w => [0x2D, loByte w, hiByte w]
  | .andAbsX w => [0x3D, loByte w, hiByte w]
  | .andAbsY w => [0x39, loByte w, hiByte w]
  | .andIndX b => [0x21, b]
  | .andIndY b => [0x31, b]
  | .oraImm v => [0x09, v]
  | .oraZp b => [0x05, b]
  | .oraZpX b => [0x15, b]
  | .oraAbs w => [0x0D, loByte w, hiByte w]
  | .oraAbsX w => [0x1D, loByte w, hiByte w]
  | .oraAbsY w => [0x19, loByte w, hiByte w]
  | .oraIndX b => [0x01, b]
  | .oraIndY b => [0x11, b]
  | .eorImm v => [0x49, v]
  | .eorZp b => [0x45, b]
  | .eorZpX b => [0x55, b]
  | .eorAbs w => [0x4D, loByte w, hiByte w]
  | .eorAbsX w => [0x5D, loByte w, hiByte w]
  | .eorAbsY w => [0x59, loByte w, hiByte w]
  | .eorIndX b => [0x41, b]
  | .eorIndY b => [0x51, b]
  | .bitZp b => [0x24, b]
  | .bitAbs w => [0x2C, loByte w, hiByte w]
  | .incZp b => [0xE6, b]
  | .incZpX b => [0xF6, b]
  | .incAbs w => [0xEE, loByte w, hiByte w]
  | .incAbsX w => [0xFE, loByte w, hiByte w]
  | .decZp b => [0xC6, b]
  | .decZpX b => [0xD6, b]
  | .decAbs w => [0xCE, loByte w, hiByte w]
  | .decAbsX w => [0xDE, loByte w, hiByte w]
  | .inx => [0xE8]
  | .iny => [0xC8]
  | .dex => [0xCA]
  | .dey => [0x88]
  | .jmpAbs w => [0x4C, loByte w, hiByte w]
  | .jmpInd w => [0x6C, loByte w, hiByte w]
  | .jsr w => [0x20, loByte w, hiByte w]
  | .rts => [0x60]
  | .beq off => [0xF0, off]
  | .bne off => [0xD0, off]
  | .bcs off => [0xB0, off]
  | .bcc off => [0x90, off]
  | .bmi off => [0x30, off]
  | .bpl off => [0x10, off]
  | .bvs off => [0x70, off]
  | .bvc off => [0x50, off]
  | .adcImm v => [0x69, v]
  | .adcZp b => [0x65, b]
  | .adcZpX b => [0x75, b]
  | .adcAbs w => [0x6D, loByte w, hiByte w]
  | .adcAbsX w => [0x7D, loByte w, hiByte w]
  | .adcAbsY w => [0x79, loByte w, hiByte w]
  | .adcIndX b => [0x61, b]
  | .adcIndY b => [0x71, b]
  | .sbcImm v => [0xE9, v]
  | .sbcZp b => [0xE5, b]
  | .sbcZpX b => [0xF5, b]
  | .sbcAbs w => [0xED, loByte w, hiByte w]
  | .sbcAbsX w => [0xFD, loByte w, hiByte w]
  | .sbcAbsY w => [0xF9, loByte w, hiByte w]
  | .sbcIndX b => [0xE1, b]
  | .sbcIndY b => [0xF1, b]
  | .cmpImm v => [0xC9, v]
  | .cmpZp b => [0xC5, b]
  | .cmpZpX b => [0xD5, b]
  | .cmpAbs w => [0xCD, loByte w, hiByte w]
  | .cmpAbsX w => [0xDD, loByte w, hiByte w]
  | .cmpAbsY w => [0xD9, loByte w, hiByte w]
  | .cmpIndX b => [0xC1, b]
  | .cmpIndY b => [0xD1, b]
  | .cpxImm v => [0xE0, v]
  | .cpxZp b => [0xE4, b]
  | .cpxAbs w => [0xEC, loByte w, hiByte w]
  | .cpyImm v => [0xC0, v]
  | .cpyZp b => [0xC4, b]
  | .cpyAbs w => [0xCC, loByte w, hiByte w]
  | .clc => [0x18]
  | .cld => [0xD8]
  | .cli => [0x58]
  | .clv => [0xB8]
  | .sec => [0x38]
  | .sed => [0xF8]
  | .sei => [0x78]
  | .nop => [0xEA]

/-- The length of an instruction in bytes: 1, 2 or 3 (R50). -/
def instrLength (i : Instr) : Nat := (encode i).length

/-- Why bytes are no instruction. -/
inductive Reject where
  /-- The first byte is one of the 127 values outside the opcode map (R65). -/
  | unrecognized (op : Byte)
  /-- The bytes end before the instruction does (R50). -/
  | truncated
deriving DecidableEq, Repr

/-- The first instruction of a list of bytes, with the bytes after it. -/
def decode (bytes : List Byte) : Except Reject (Instr × List Byte) :=
  match bytes with
  | [] => .error .truncated
  | op :: rest =>
    match decodeAt op (rest.getD 0 0) (rest.getD 1 0) with
    | none => .error (.unrecognized op)
    | some i =>
      if rest.length + 1 < instrLength i then .error .truncated
      else .ok (i, rest.drop (instrLength i - 1))

/-- Byte `k` of an instruction whose bits are `w`, bit 0 the least significant bit of the first byte, where the table
gives the row `nbits` bits and every bit above them is 0. -/
def tableByte (nbits w k : Nat) : Byte := BitVec.ofNat 8 (w % 2 ^ nbits / 256 ^ k)

/-- The instruction the decoder reads from an opcode-table word. -/
def decodeTableWord (nbits w : Nat) : Option Instr :=
  match decode [tableByte nbits w 0, tableByte nbits w 1, tableByte nbits w 2] with
  | .ok (i, _) => some i
  | .error _ => none

end Sys2Proof
end

