-- ==== Sys2Proof/Machine/Fetch.lean ====
section
/-! DEFINITION. Instruction fetch (R36, R46, R51): which instruction stands at `PC`, the decode fault, and the placing of
an opcode-table word where the next fetch finds it. -/

namespace Sys2Proof.Machine

/-- The instruction at `PC`: the bytes at `PC`, `PC +_16 1`, `PC +_16 2`, decoded. Reading a byte has no side effect (R38), so
looking at all three at once gives what the byte-by-byte fetch of R36 gives (DEDUCED, safe: log entry 18); `exec`
moves `PC` past the bytes the instruction has and charges their fetches. `none`: an unrecognised opcode. -/
def fetchInstr (s : State) : Option Instr :=
  decodeAt (byteAt s s.pc) (byteAt s (s.pc + 1)) (byteAt s (s.pc + 2))

/-- An unrecognised opcode at `PC` (R200, R201, R226): the opcode fetch happens and nothing else of the instruction, and
the exception is taken with the byte and the address it was fetched from. -/
def decodeFault (s : State) : State :=
  let got := fetchByte s
  raiseUnrecognizedOpcode s.pc got.1 got.2

/-- The outcome of a step of the halted core: nothing is executed, the recorded fault is reported (R203). -/
def haltedOutcome (s : State) : Result := .fault (.unrecognizedOpcode s.faultAddr s.faultOp)

/-- The bytes of an opcode-table word stored at `PC`, `PC +_16 1`, `PC +_16 2`, in a core that is not halted, since a halted core
fetches nothing (log entry 19). -/
def placeTableWord (s : State) (nbits w : Nat) : State :=
  let m0 := Memory.write s.mem s.pc.toNat (tableByte nbits w 0)
  let m1 := Memory.write m0 (s.pc + 1).toNat (tableByte nbits w 1)
  let m2 := Memory.write m1 (s.pc + 2).toNat (tableByte nbits w 2)
  { s with mem := m2, halted := false }

end Sys2Proof.Machine
end

