-- ==== Sys2Proof/Machine/Step.lean ====
section
/-! DEFINITION. One iteration of the control unit's loop, `Step()` of R226. -/

namespace Sys2Proof.Machine

/-- Fetch, decode and execute one whole instruction (R226). An unrecognised opcode takes the exception and the next state
is halted; a halted core executes nothing (R203). -/
def step (s : State) : Host.Outcome State Fault Refusal :=
  if s.halted then haltedOutcome s
  else
    match fetchInstr s with
    | some i => exec i s
    | none => .next (decodeFault s)

/-- `s` with an opcode-table word stored where `step` fetches its next instruction. -/
def State.withFetchWord (s : State) (nbits w : Nat) : State := placeTableWord s nbits w

end Sys2Proof.Machine
end

