-- ==== Sys2Proof/Machine/HostPort.lean ====
section
/-! DEFINITION. The host's other requests (R5): `reset`, the state access port, `load_program`. They happen only between
runs (R230; the spec's decision D17, log entry 17). -/

namespace Sys2Proof.Machine

/-- The flags, named one at a time on the state access port (R230). -/
inductive FlagName where
  | c | z | i | d | b | u | v | n
deriving DecidableEq, Repr

/-- The write of one flag; the others keep their values (R14, R230). -/
def setFlag (name : FlagName) (value : Bool) (f : Flags) : Flags :=
  match name with
  | .c => { f with c := value }
  | .z => { f with z := value }
  | .i => { f with i := value }
  | .d => { f with d := value }
  | .b => { f with b := value }
  | .u => { f with u := value }
  | .v => { f with v := value }
  | .n => { f with n := value }

/-- The read of one flag (R230). -/
def getFlag (name : FlagName) (f : Flags) : Bool :=
  match name with
  | .c => f.c
  | .z => f.z
  | .i => f.i
  | .d => f.d
  | .b => f.b
  | .u => f.u
  | .v => f.v
  | .n => f.n

/-- An item the host can read (R230). -/
inductive HostItem where
  | pc
  | sp
  | a
  | x
  | y
  | flag (name : FlagName)
  | cell (addr : Word)
deriving DecidableEq, Repr

/-- A write of one item (R230). -/
inductive HostWrite where
  | pc (v : Word)
  | sp (v : Byte)
  | a (v : Byte)
  | x (v : Byte)
  | y (v : Byte)
  | flag (name : FlagName) (value : Bool)
  | cell (addr : Word) (v : Byte)
deriving DecidableEq, Repr

/-- A host read, as a number; it changes nothing and is possible while the core is idle or halted (R230, R203). -/
def hostRead (item : HostItem) (s : State) : Nat :=
  match item with
  | .pc => s.pc.toNat
  | .sp => s.sp.toNat
  | .a => s.a.toNat
  | .x => s.x.toNat
  | .y => s.y.toNat
  | .flag name => (getFlag name s.flags).toNat
  | .cell addr => (byteAt s addr).toNat

/-- What a host write does: "a write changes exactly the item written"; no cycle is consumed (R230). -/
def applyHostWrite (req : HostWrite) (s : State) : State :=
  match req with
  | .pc v => s.setPC v
  | .sp v => s.setSP v
  | .a v => s.setA v
  | .x v => s.setX v
  | .y v => s.setY v
  | .flag name value => s.setFlags (setFlag name value s.flags)
  | .cell addr v => s.setMem (Memory.write s.mem addr.toNat v)

/-- A host write: refused while the core is halted, when the port only reads (R230). -/
def hostWrite (req : HostWrite) (s : State) : Result :=
  if s.halted then .refused .hostWriteWhileHalted else .next (applyHostWrite req s)

/-- `reset(reset_vector)` as a request: allowed idle or halted, and nothing of the old state is kept (R220, R221). -/
def resetCore (vector : Word) (_ : State) : State := State.resetTo vector

/-- `load_program(bytes)` (R231): the body is copied from the load address up and `PC` set to that address; outside its
precondition the request is refused (the spec's decision D14, log entry 16). -/
def loadProgram (bytes : List Byte) (s : State) : Result :=
  if s.halted then .refused .hostWriteWhileHalted
  else if imageHasAddress bytes then
    if imageFits bytes then
      .next ((s.setMem (Memory.writeList s.mem (imageBase bytes).toNat (bytes.drop 2))).setPC (imageBase bytes))
    else .refused .imagePastTop
  else .refused .imageTooShort

end Sys2Proof.Machine
end

