-- ==== Sys2Proof/Machine/Run.lean ====
section
/-! DEFINITION. Run control: `execute(budget)` (R225, R227). -/

namespace Sys2Proof.Machine

/-- How a run ends (R227). -/
inductive RunResult where
  /-- The loop test found `cycles_consumed >= budget`: `cycles_used`, and the idle core. -/
  | returned (cyclesUsed : Nat) (s : State)
  /-- The unrecognised-opcode fault ended the run, or the core was halted already: the report, and the halted core. -/
  | faulted (addr : Word) (op : Byte) (s : State)
  /-- A step was refused. No step of this model is. -/
  | refused (r : Refusal)
deriving DecidableEq, Repr

/-- The loop of R225, at most `fuel` iterations of it. Every instruction costs at least 2 cycles, so `budget` iterations
are enough for the loop test to end a run (DEDUCED, safe: log entry 21). -/
def runLoop (budget : Nat) : Nat → State → RunResult
  | 0, s => .returned s.cycles s
  | fuel + 1, s =>
    if s.cycles < budget then
      match step s with
      | .next t => if t.halted then .faulted t.faultAddr t.faultOp t else runLoop budget fuel t
      | .fault (.unrecognizedOpcode addr op) => .faulted addr op s
      | .refused r => .refused r
    else .returned s.cycles s

/-- The end of a run: the count has been returned to the host and is not kept in the core (R208, R21). -/
def endRun (r : RunResult) : RunResult :=
  match r with
  | .returned used s => .returned used s.dropCount
  | .faulted addr op s => .faulted addr op s.dropCount
  | .refused reason => .refused reason

/-- `execute(budget)` (R225): a halted core returns its fault again and changes nothing (R203); otherwise the count starts at 0,
whole instructions are executed until it meets or exceeds the budget, and it is dropped. The budget is a natural number (the
spec's decision D13, log entry 15). -/
def execute (budget : Nat) (s : State) : RunResult :=
  if s.halted then .faulted s.faultAddr s.faultOp s
  else endRun (runLoop budget budget s.dropCount)

end Sys2Proof.Machine
end

