-- ==== Sys2Proof/Safety.lean ====
section
/-! DEFINITION. The terms claims use: what a safe run is, the invariant of the machine, and the spec's own tables of which
instruction has which mnemonic, opcode byte, operand and cycle total, written apart from the decoder and the meanings. -/

namespace Sys2Proof.Machine

/-- The core may execute: it is not halted (R203). -/
abbrev State.Idle (s : State) : Prop := s.halted = false

/-- A run that ends normally, never in the fault state (R227). -/
def SafeRun (budget : Nat) (s : State) : Prop := ∃ used t, execute budget s = .returned used t

/-- The 127 unrecognised opcode bytes (R65). -/
def unrecognizedOpcodes : List Byte :=
  [0x00, 0x02, 0x03, 0x04, 0x06, 0x07, 0x0A, 0x0B, 0x0C, 0x0E, 0x0F, 0x12, 0x13, 0x14, 0x16, 0x17]
  ++ [0x1A, 0x1B, 0x1C, 0x1E, 0x1F, 0x22, 0x23, 0x26, 0x27, 0x2A, 0x2B, 0x2E, 0x2F, 0x32, 0x33, 0x34]
  ++ [0x36, 0x37, 0x3A, 0x3B, 0x3C, 0x3E, 0x3F, 0x40, 0x42, 0x43, 0x44, 0x46, 0x47, 0x4A, 0x4B, 0x4E]
  ++ [0x4F, 0x52, 0x53, 0x54, 0x56, 0x57, 0x5A, 0x5B, 0x5C, 0x5E, 0x5F, 0x62, 0x63, 0x64, 0x66, 0x67]
  ++ [0x6A, 0x6B, 0x6E, 0x6F, 0x72, 0x73, 0x74, 0x76, 0x77, 0x7A, 0x7B, 0x7C, 0x7E, 0x7F, 0x80, 0x82]
  ++ [0x83, 0x87, 0x89, 0x8B, 0x8F, 0x92, 0x93, 0x97, 0x9B, 0x9C, 0x9E, 0x9F, 0xA3, 0xA7, 0xAB, 0xAF]
  ++ [0xB2, 0xB3, 0xB7, 0xBB, 0xBF, 0xC2, 0xC3, 0xC7, 0xCB, 0xCF, 0xD2, 0xD3, 0xD4, 0xD7, 0xDA, 0xDB]
  ++ [0xDC, 0xDF, 0xE2, 0xE3, 0xE7, 0xEB, 0xEF, 0xF2, 0xF3, 0xF4, 0xF7, 0xFA, 0xFB, 0xFC, 0xFF]

/-- The machine's invariant: memory is in its canonical form, and a halted core is halted by an unrecognised byte. -/
abbrev State.Inv (s : State) : Prop :=
  Memory.wf s.mem ∧ (s.halted = true → s.faultOp ∈ unrecognizedOpcodes)

/-- The 50 mnemonics (R60). -/
inductive Mnemonic where
  | lda | ldx | ldy | sta | stx | sty | tax | tay | txa | tya
  | tsx | txs | pha | php | pla | plp | and | ora | eor | bit
  | inc | dec | inx | iny | dex | dey | jmp | jsr | rts | beq
  | bne | bcs | bcc | bmi | bpl | bvs | bvc | adc | sbc | cmp
  | cpx | cpy | clc | cld | cli | clv | sec | sed | sei | nop
deriving DecidableEq, Repr

/-- The mnemonic of each row of the opcode map (R60). -/
def mnemonic (i : Instr) : Mnemonic :=
  match i with
  | .ldaImm _ => .lda
  | .ldaZp _ => .lda
  | .ldaZpX _ => .lda
  | .ldaAbs _ => .lda
  | .ldaAbsX _ => .lda
  | .ldaAbsY _ => .lda
  | .ldaIndX _ => .lda
  | .ldaIndY _ => .lda
  | .ldxImm _ => .ldx
  | .ldxZp _ => .ldx
  | .ldxZpY _ => .ldx
  | .ldxAbs _ => .ldx
  | .ldxAbsY _ => .ldx
  | .ldyImm _ => .ldy
  | .ldyZp _ => .ldy
  | .ldyZpX _ => .ldy
  | .ldyAbs _ => .ldy
  | .ldyAbsX _ => .ldy
  | .staZp _ => .sta
  | .staZpX _ => .sta
  | .staAbs _ => .sta
  | .staAbsX _ => .sta
  | .staAbsY _ => .sta
  | .staIndX _ => .sta
  | .staIndY _ => .sta
  | .stxZp _ => .stx
  | .stxZpY _ => .stx
  | .stxAbs _ => .stx
  | .styZp _ => .sty
  | .styZpX _ => .sty
  | .styAbs _ => .sty
  | .tax => .tax
  | .tay => .tay
  | .txa => .txa
  | .tya => .tya
  | .tsx => .tsx
  | .txs => .txs
  | .pha => .pha
  | .php => .php
  | .pla => .pla
  | .plp => .plp
  | .andImm _ => .and
  | .andZp _ => .and
  | .andZpX _ => .and
  | .andAbs _ => .and
  | .andAbsX _ => .and
  | .andAbsY _ => .and
  | .andIndX _ => .and
  | .andIndY _ => .and
  | .oraImm _ => .ora
  | .oraZp _ => .ora
  | .oraZpX _ => .ora
  | .oraAbs _ => .ora
  | .oraAbsX _ => .ora
  | .oraAbsY _ => .ora
  | .oraIndX _ => .ora
  | .oraIndY _ => .ora
  | .eorImm _ => .eor
  | .eorZp _ => .eor
  | .eorZpX _ => .eor
  | .eorAbs _ => .eor
  | .eorAbsX _ => .eor
  | .eorAbsY _ => .eor
  | .eorIndX _ => .eor
  | .eorIndY _ => .eor
  | .bitZp _ => .bit
  | .bitAbs _ => .bit
  | .incZp _ => .inc
  | .incZpX _ => .inc
  | .incAbs _ => .inc
  | .incAbsX _ => .inc
  | .decZp _ => .dec
  | .decZpX _ => .dec
  | .decAbs _ => .dec
  | .decAbsX _ => .dec
  | .inx => .inx
  | .iny => .iny
  | .dex => .dex
  | .dey => .dey
  | .jmpAbs _ => .jmp
  | .jmpInd _ => .jmp
  | .jsr _ => .jsr
  | .rts => .rts
  | .beq _ => .beq
  | .bne _ => .bne
  | .bcs _ => .bcs
  | .bcc _ => .bcc
  | .bmi _ => .bmi
  | .bpl _ => .bpl
  | .bvs _ => .bvs
  | .bvc _ => .bvc
  | .adcImm _ => .adc
  | .adcZp _ => .adc
  | .adcZpX _ => .adc
  | .adcAbs _ => .adc
  | .adcAbsX _ => .adc
  | .adcAbsY _ => .adc
  | .adcIndX _ => .adc
  | .adcIndY _ => .adc
  | .sbcImm _ => .sbc
  | .sbcZp _ => .sbc
  | .sbcZpX _ => .sbc
  | .sbcAbs _ => .sbc
  | .sbcAbsX _ => .sbc
  | .sbcAbsY _ => .sbc
  | .sbcIndX _ => .sbc
  | .sbcIndY _ => .sbc
  | .cmpImm _ => .cmp
  | .cmpZp _ => .cmp
  | .cmpZpX _ => .cmp
  | .cmpAbs _ => .cmp
  | .cmpAbsX _ => .cmp
  | .cmpAbsY _ => .cmp
  | .cmpIndX _ => .cmp
  | .cmpIndY _ => .cmp
  | .cpxImm _ => .cpx
  | .cpxZp _ => .cpx
  | .cpxAbs _ => .cpx
  | .cpyImm _ => .cpy
  | .cpyZp _ => .cpy
  | .cpyAbs _ => .cpy
  | .clc => .clc
  | .cld => .cld
  | .cli => .cli
  | .clv => .clv
  | .sec => .sec
  | .sed => .sed
  | .sei => .sei
  | .nop => .nop

/-- The opcode byte and the operand of each form of a reading instruction (R100 to R102, R130 to R133, R170 to R174). -/
def readForm (i : Instr) : Option (Byte × Operand) :=
  match i with
  | .ldaImm v => some (0xA9, .immediate v)
  | .ldaZp b => some (0xA5, .memory (.zeroPage b))
  | .ldaZpX b => some (0xB5, .memory (.zeroPageX b))
  | .ldaAbs w => some (0xAD, .memory (.absolute w))
  | .ldaAbsX w => some (0xBD, .memory (.absoluteX w))
  | .ldaAbsY w => some (0xB9, .memory (.absoluteY w))
  | .ldaIndX b => some (0xA1, .memory (.indirectX b))
  | .ldaIndY b => some (0xB1, .memory (.indirectY b))
  | .ldxImm v => some (0xA2, .immediate v)
  | .ldxZp b => some (0xA6, .memory (.zeroPage b))
  | .ldxZpY b => some (0xB6, .memory (.zeroPageY b))
  | .ldxAbs w => some (0xAE, .memory (.absolute w))
  | .ldxAbsY w => some (0xBE, .memory (.absoluteY w))
  | .ldyImm v => some (0xA0, .immediate v)
  | .ldyZp b => some (0xA4, .memory (.zeroPage b))
  | .ldyZpX b => some (0xB4, .memory (.zeroPageX b))
  | .ldyAbs w => some (0xAC, .memory (.absolute w))
  | .ldyAbsX w => some (0xBC, .memory (.absoluteX w))
  | .andImm v => some (0x29, .immediate v)
  | .andZp b => some (0x25, .memory (.zeroPage b))
  | .andZpX b => some (0x35, .memory (.zeroPageX b))
  | .andAbs w => some (0x2D, .memory (.absolute w))
  | .andAbsX w => some (0x3D, .memory (.absoluteX w))
  | .andAbsY w => some (0x39, .memory (.absoluteY w))
  | .andIndX b => some (0x21, .memory (.indirectX b))
  | .andIndY b => some (0x31, .memory (.indirectY b))
  | .oraImm v => some (0x09, .immediate v)
  | .oraZp b => some (0x05, .memory (.zeroPage b))
  | .oraZpX b => some (0x15, .memory (.zeroPageX b))
  | .oraAbs w => some (0x0D, .memory (.absolute w))
  | .oraAbsX w => some (0x1D, .memory (.absoluteX w))
  | .oraAbsY w => some (0x19, .memory (.absoluteY w))
  | .oraIndX b => some (0x01, .memory (.indirectX b))
  | .oraIndY b => some (0x11, .memory (.indirectY b))
  | .eorImm v => some (0x49, .immediate v)
  | .eorZp b => some (0x45, .memory (.zeroPage b))
  | .eorZpX b => some (0x55, .memory (.zeroPageX b))
  | .eorAbs w => some (0x4D, .memory (.absolute w))
  | .eorAbsX w => some (0x5D, .memory (.absoluteX w))
  | .eorAbsY w => some (0x59, .memory (.absoluteY w))
  | .eorIndX b => some (0x41, .memory (.indirectX b))
  | .eorIndY b => some (0x51, .memory (.indirectY b))
  | .bitZp b => some (0x24, .memory (.zeroPage b))
  | .bitAbs w => some (0x2C, .memory (.absolute w))
  | .adcImm v => some (0x69, .immediate v)
  | .adcZp b => some (0x65, .memory (.zeroPage b))
  | .adcZpX b => some (0x75, .memory (.zeroPageX b))
  | .adcAbs w => some (0x6D, .memory (.absolute w))
  | .adcAbsX w => some (0x7D, .memory (.absoluteX w))
  | .adcAbsY w => some (0x79, .memory (.absoluteY w))
  | .adcIndX b => some (0x61, .memory (.indirectX b))
  | .adcIndY b => some (0x71, .memory (.indirectY b))
  | .sbcImm v => some (0xE9, .immediate v)
  | .sbcZp b => some (0xE5, .memory (.zeroPage b))
  | .sbcZpX b => some (0xF5, .memory (.zeroPageX b))
  | .sbcAbs w => some (0xED, .memory (.absolute w))
  | .sbcAbsX w => some (0xFD, .memory (.absoluteX w))
  | .sbcAbsY w => some (0xF9, .memory (.absoluteY w))
  | .sbcIndX b => some (0xE1, .memory (.indirectX b))
  | .sbcIndY b => some (0xF1, .memory (.indirectY b))
  | .cmpImm v => some (0xC9, .immediate v)
  | .cmpZp b => some (0xC5, .memory (.zeroPage b))
  | .cmpZpX b => some (0xD5, .memory (.zeroPageX b))
  | .cmpAbs w => some (0xCD, .memory (.absolute w))
  | .cmpAbsX w => some (0xDD, .memory (.absoluteX w))
  | .cmpAbsY w => some (0xD9, .memory (.absoluteY w))
  | .cmpIndX b => some (0xC1, .memory (.indirectX b))
  | .cmpIndY b => some (0xD1, .memory (.indirectY b))
  | .cpxImm v => some (0xE0, .immediate v)
  | .cpxZp b => some (0xE4, .memory (.zeroPage b))
  | .cpxAbs w => some (0xEC, .memory (.absolute w))
  | .cpyImm v => some (0xC0, .immediate v)
  | .cpyZp b => some (0xC4, .memory (.zeroPage b))
  | .cpyAbs w => some (0xCC, .memory (.absolute w))
  | _ => none

/-- The opcode byte and the addressing mode of each form of a writing instruction (R103 to R105). -/
def storeForm (i : Instr) : Option (Byte × AddrMode) :=
  match i with
  | .staZp b => some (0x85, .zeroPage b)
  | .staZpX b => some (0x95, .zeroPageX b)
  | .staAbs w => some (0x8D, .absolute w)
  | .staAbsX w => some (0x9D, .absoluteX w)
  | .staAbsY w => some (0x99, .absoluteY w)
  | .staIndX b => some (0x81, .indirectX b)
  | .staIndY b => some (0x91, .indirectY b)
  | .stxZp b => some (0x86, .zeroPage b)
  | .stxZpY b => some (0x96, .zeroPageY b)
  | .stxAbs w => some (0x8E, .absolute w)
  | .styZp b => some (0x84, .zeroPage b)
  | .styZpX b => some (0x94, .zeroPageX b)
  | .styAbs w => some (0x8C, .absolute w)
  | _ => none

/-- The opcode byte and the addressing mode of each form of a read-modify-write instruction (R140, R141). -/
def modifyForm (i : Instr) : Option (Byte × AddrMode) :=
  match i with
  | .incZp b => some (0xE6, .zeroPage b)
  | .incZpX b => some (0xF6, .zeroPageX b)
  | .incAbs w => some (0xEE, .absolute w)
  | .incAbsX w => some (0xFE, .absoluteX w)
  | .decZp b => some (0xC6, .zeroPage b)
  | .decZpX b => some (0xD6, .zeroPageX b)
  | .decAbs w => some (0xCE, .absolute w)
  | .decAbsX w => some (0xDE, .absoluteX w)
  | _ => none

/-- The opcode byte, the displacement and, on given flags, the condition of each branch (R161 to R168). -/
def branchForm (i : Instr) (f : Flags) : Option (Byte × Byte × Bool) :=
  match i with
  | .beq off => some (0xF0, off, decide (f.z = true))
  | .bne off => some (0xD0, off, decide (f.z = false))
  | .bcs off => some (0xB0, off, decide (f.c = true))
  | .bcc off => some (0x90, off, decide (f.c = false))
  | .bmi off => some (0x30, off, decide (f.n = true))
  | .bpl off => some (0x10, off, decide (f.n = false))
  | .bvs off => some (0x70, off, decide (f.v = true))
  | .bvc off => some (0x50, off, decide (f.v = false))
  | _ => none

/-- The operand bytes of a mode in memory order (R50). -/
def modeBytes (m : AddrMode) : List Byte :=
  match m with
  | .zeroPage b => [b]
  | .zeroPageX b => [b]
  | .zeroPageY b => [b]
  | .absolute w => [loByte w, hiByte w]
  | .absoluteX w => [loByte w, hiByte w]
  | .absoluteY w => [loByte w, hiByte w]
  | .indirectX b => [b]
  | .indirectY b => [b]

/-- The operand bytes of a reading instruction (R50). -/
def operandBytes (o : Operand) : List Byte :=
  match o with
  | .immediate v => [v]
  | .memory m => modeBytes m

/-- The published total of a reading instruction, `p` the page-cross indicator (R60, R240). -/
def readCycles (o : Operand) (s : State) : Nat :=
  match o with
  | .immediate _ => 2
  | .memory (.zeroPage _) => 3
  | .memory (.zeroPageX _) => 4
  | .memory (.zeroPageY _) => 4
  | .memory (.absolute _) => 4
  | .memory (.absoluteX w) => 4 + (pageCrossed (.absoluteX w) s).toNat
  | .memory (.absoluteY w) => 4 + (pageCrossed (.absoluteY w) s).toNat
  | .memory (.indirectX _) => 6
  | .memory (.indirectY b) => 5 + (pageCrossed (.indirectY b) s).toNat

/-- The published total of a writing instruction: no page-cross cycle (R63, R240). -/
def storeCycles (m : AddrMode) : Nat :=
  match m with
  | .zeroPage _ => 3
  | .zeroPageX _ => 4
  | .zeroPageY _ => 4
  | .absolute _ => 4
  | .absoluteX _ => 5
  | .absoluteY _ => 5
  | .indirectX _ => 6
  | .indirectY _ => 6

/-- The published total of a read-modify-write instruction for its four modes (R140, R141, R240); no instruction has
another. -/
def modifyCycles (m : AddrMode) : Nat := storeCycles m + 2

/-- The address of the instruction after `i` at `PC`: its own address plus its length (R12). -/
def nextPC (i : Instr) (s : State) : Word := s.pc + BitVec.ofNat 16 (instrLength i)

/-- The flags with `SetZN(v)` applied: Z iff `v = 0`, N the bit 7 of `v` (R17). -/
def flagsZN (v : Byte) (f : Flags) : Flags := { f with z := decide (v = 0), n := v.getLsbD 7 }

/-- The signed reading of a byte (`signed8`, spec/00_scope.md section 5). -/
def signed8 (v : Byte) : Int := if v.toNat < 128 then v.toNat else (v.toNat : Int) - 256

/-- The result of pushing a list of bytes, the first pushed first (R40). -/
def pushAll : List Byte → State → State
  | [], s => s
  | v :: vs, s => pushAll vs (pushByte v s)

/-- `n` pops, the bytes in the order popped (R41). -/
def popMany : Nat → State → List Byte × State
  | 0, s => ([], s)
  | n + 1, s => ((popByte s).1 :: (popMany n (popByte s).2).1, (popMany n (popByte s).2).2)

end Sys2Proof.Machine
end

