-- ==== Sys2Proof/Certificates/Slice0/Obligations.lean ====
section
/-! DEFINITION. The statements for the provers, in the order of OBLIGATIONS.json: the machine and its step, encoding, memory
and stack, addressing modes, each instruction family, whole-machine rules, runs and the host. -/

open Sys2Proof Sys2Proof.Machine

/-! ### Encoding -/

/-- R51, R226: the instruction that the bytes at `PC` decode to is the one a step of the idle core runs. `exec` itself moves `PC`
past the instruction's bytes and charges their fetches, so a step adds nothing around it. -/
def Obligations.StepRunsDecodedInstruction : Prop :=
  ∀ (s : State) (i : Instr) (rest : List Byte), s.Idle →
    decode [byteAt s s.pc, byteAt s (s.pc + 1), byteAt s (s.pc + 2)] = .ok (i, rest) → step s = exec i s

/-- R60, one word of each family written out from the spec's table. The byte values are the spec's decision D1. -/
def Obligations.TableWordsDecode : Prop :=
  decode [0xBD, 0x80, 0x44, 0xEA] = .ok (.ldaAbsX 0x4480, [0xEA]) ∧
  decode [0x9A] = .ok (.txs, []) ∧
  decode [0x28, 0xFF] = .ok (.plp, [0xFF]) ∧
  decode [0x24, 0x10] = .ok (.bitZp 0x10, []) ∧
  decode [0xFE, 0xF0, 0x12] = .ok (.incAbsX 0x12F0, []) ∧
  decode [0x6C, 0x20, 0x01] = .ok (.jmpInd 0x0120, []) ∧
  decode [0xD0, 0xFC] = .ok (.bne 0xFC, []) ∧
  decode [0xF1, 0x30] = .ok (.sbcIndY 0x30, []) ∧
  decode [0xD8] = .ok (.cld, []) ∧
  decode [0x0A] = .error (.unrecognized 0x0A) ∧
  decode [0x4C, 0x34] = .error .truncated

/-- Decoding the bytes of any instruction, whatever follows them, gives that instruction with every operand at every value and
leaves what follows. Every instruction is well formed (R65). -/
def Obligations.DecodeOfEncodeIsIdentity : Prop :=
  ∀ (i : Instr) (rest : List Byte), decode (encode i ++ rest) = .ok (i, rest)

/-- The other direction: bytes that decode are the bytes of the instruction they decode to, so no two encodings share an
instruction and no byte read is dropped. -/
def Obligations.EncodeOfDecodeIsTheBytes : Prop :=
  ∀ (bytes : List Byte) (i : Instr) (rest : List Byte), decode bytes = .ok (i, rest) → bytes = encode i ++ rest

/-- R65: the unrecognised opcode bytes are exactly the 127 listed, whatever bytes follow. Which bytes they are rests on the spec's
decisions D1, D2 and D5. -/
def Obligations.UnrecognizedBytesAreThe127 : Prop :=
  unrecognizedOpcodes.length = 127 ∧ unrecognizedOpcodes.Nodup ∧
  ∀ (op : Byte) (rest : List Byte), decode (op :: rest) = .error (.unrecognized op) ↔ op ∈ unrecognizedOpcodes

/-- R50, R51, R66: the opcode byte alone decides the operation and the length, which is 1, 2 or 3. -/
def Obligations.OpcodeByteAloneDecides : Prop :=
  ∀ (op b1 b2 c1 c2 : Byte) (i : Instr), decodeAt op b1 b2 = some i →
    1 ≤ instrLength i ∧ instrLength i ≤ 3 ∧
    ∃ j, decodeAt op c1 c2 = some j ∧ instrLength j = instrLength i ∧ mnemonic j = mnemonic i

/-! ### The exception and reset -/

/-- R200, R201: an unrecognised byte at `PC` halts the core and is reported with the address it was fetched from; registers, flags
and memory keep their values. Nothing is said of `PC` and the cycle count, which no claim may read (U9). That the halt is a latch
and what is recorded is the spec's decision D9; that the halted state is the step's next state is log entry 4. -/
def Obligations.UnrecognizedOpcodeHalts : Prop :=
  ∀ s : State, s.Idle → byteAt s s.pc ∈ unrecognizedOpcodes →
    ∃ t, step s = .next t ∧
      t = { s with halted := true, faultAddr := s.pc, faultOp := byteAt s s.pc, pc := t.pc, cycles := t.cycles }

/-- R203, R225: a halted core executes nothing, and every run of it returns the same fault and changes nothing. The spec's
decision D9 and log entry 4. -/
def Obligations.HaltedCoreExecutesNothing : Prop :=
  ∀ s : State, s.halted = true →
    step s = .fault (.unrecognizedOpcode s.faultAddr s.faultOp) ∧
    ∀ budget, execute budget s = .faulted s.faultAddr s.faultOp s

/-- R220, R221: reset leaves the stated value everywhere, whatever the state before. The latch `halted` is the spec's decision D9.
The fault record and the count, which the spec gives no reset value (log entries 2 and 3), are not mentioned. -/
def Obligations.ResetLeavesStatedValues : Prop :=
  ∀ (vector : Word) (old : State),
    (resetCore vector old).pc = vector ∧ (resetCore vector old).sp = 0xFD ∧
    (resetCore vector old).a = 0x00 ∧ (resetCore vector old).x = 0x00 ∧ (resetCore vector old).y = 0x00 ∧
    (resetCore vector old).flags =
      { c := false, z := false, i := false, d := false, b := false, u := false, v := false, n := false } ∧
    (∀ q, byteAt (resetCore vector old) q = 0x00) ∧
    (resetCore vector old).halted = false

/-! ### The invariant -/

/-- The invariant holds after reset, for every reset vector. -/
def Obligations.ResetHasTheInvariant : Prop :=
  State.reset.Inv ∧ ∀ vector : Word, (State.resetTo vector).Inv

/-- Every step keeps the invariant: memory stays in its canonical form, and a core that halts is halted by an unrecognised byte.
-/
def Obligations.StepKeepsTheInvariant : Prop :=
  ∀ s t : State, s.Inv → step s = .next t → t.Inv

/-- A whole run keeps it, however it ends, and so do the host's writes. -/
def Obligations.RunsAndHostWritesKeepTheInvariant : Prop :=
  ∀ s : State, s.Inv →
    (∀ budget used t, execute budget s = .returned used t → t.Inv) ∧
    (∀ budget addr op t, execute budget s = .faulted addr op t → t.Inv) ∧
    (∀ req t, hostWrite req s = .next t → t.Inv) ∧
    (∀ bytes t, loadProgram bytes s = .next t → t.Inv)

/-- Canonical memories with the same cells are the same data. -/
def Obligations.CanonicalMemoriesAreExtensional : Prop :=
  ∀ m₁ m₂ : Memory, Memory.wf m₁ → Memory.wf m₂ → (∀ a, a < 65536 → Memory.read m₁ a = Memory.read m₂ a) → m₁ = m₂

/-! ### Memory and stack primitives -/

/-- R30, R31: a byte read returns the cell, costs 1 cycle and changes no other state; a byte write sets its cell, costs 1 cycle
and changes no other cell and no register. -/
def Obligations.MemReadSeesMemWrite : Prop :=
  ∀ (s : State) (a q : Word) (v : Byte),
    memRead q s = (byteAt s q, { s with cycles := s.cycles + 1 }) ∧
    (memRead q (memWrite a v s)).1 = (if q = a then v else (memRead q s).1) ∧
    memWrite a v s = { s with mem := (memWrite a v s).mem, cycles := s.cycles + 1 }

/-- R38: a write of the value a cell already holds changes nothing (the count apart). -/
def Obligations.RewritingACellChangesNothing : Prop :=
  ∀ (s : State) (a : Word), Memory.wf s.mem → memWrite a (byteAt s a) s = { s with cycles := s.cycles + 1 }

/-- R32, R33, R34: words are little-endian at any address, even 0xFFFF; what `WriteWord` stores `ReadWord` returns; 2 cycles each.
The second address at 0xFFFF is the spec's decision D7. -/
def Obligations.ReadWordSeesWriteWord : Prop :=
  ∀ (s : State) (a w : Word),
    ((readWord a s).1.toNat = (byteAt s (a + 1)).toNat * 256 + (byteAt s a).toNat) ∧
    (readWord a s).2 = { s with cycles := s.cycles + 2 } ∧
    (∀ q, byteAt (writeWord a w s) q =
      if q = a then BitVec.ofNat 8 (w.toNat % 256) else if q = a + 1 then BitVec.ofNat 8 (w.toNat / 256) else byteAt s q) ∧
    writeWord a w s = { s with mem := (writeWord a w s).mem, cycles := s.cycles + 2 } ∧
    (readWord a (writeWord a w s)).1 = w

/-- R36, R37: `FetchByte` returns the byte at `PC`, advances `PC` by one modulo 65536 and costs 1 cycle; `FetchWord` is two of
them, low byte first; the other reads do not move `PC`. -/
def Obligations.FetchesAdvancePC : Prop :=
  ∀ (s : State) (a : Word),
    ((fetchByte s).1 = byteAt s s.pc ∧ (fetchByte s).2.pc.toNat = (s.pc.toNat + 1) % 65536 ∧
      (fetchByte s).2 = { s with pc := (fetchByte s).2.pc, cycles := s.cycles + 1 }) ∧
    ((fetchWord s).1.toNat = (byteAt s (s.pc + 1)).toNat * 256 + (byteAt s s.pc).toNat ∧
      (fetchWord s).2.pc.toNat = (s.pc.toNat + 2) % 65536 ∧
      (fetchWord s).2 = { s with pc := (fetchWord s).2.pc, cycles := s.cycles + 2 }) ∧
    (memRead a s).2.pc = s.pc ∧ (readWord a s).2.pc = s.pc ∧ (popByte s).2.pc = s.pc ∧ (popWord s).2.pc = s.pc

/-- R40, R41: a push writes at `0x0100 + SP` and then decrements `SP` modulo 256; a pop increments `SP` modulo 256 and then reads
there; 1 cycle each, and the cell a pop reads is not changed. -/
def Obligations.PushAndPopMoveSP : Prop :=
  ∀ (s : State) (v : Byte),
    ((∀ q, byteAt (pushByte v s) q = if q.toNat = 256 + s.sp.toNat then v else byteAt s q) ∧
      (pushByte v s).sp.toNat = (s.sp.toNat + 255) % 256 ∧
      pushByte v s = { s with mem := (pushByte v s).mem, sp := (pushByte v s).sp, cycles := s.cycles + 1 }) ∧
    ((popByte s).1 = byteAt s (BitVec.ofNat 16 (256 + (popByte s).2.sp.toNat)) ∧
      (popByte s).2.sp.toNat = (s.sp.toNat + 1) % 256 ∧
      (popByte s).2 = { s with sp := (popByte s).2.sp, cycles := s.cycles + 1 })

/-- R42, R43: a word is pushed high byte first and popped low byte first, and a pop right after a push returns it and restores
`SP`, for every `SP`. -/
def Obligations.PoppedWordIsPushedWord : Prop :=
  ∀ (s : State) (w : Word),
    byteAt (pushWord w s) (stackAddress s.sp) = BitVec.ofNat 8 (w.toNat / 256) ∧
    byteAt (pushWord w s) (stackAddress (s.sp - 1)) = BitVec.ofNat 8 (w.toNat % 256) ∧
    (popWord (pushWord w s)).1 = w ∧
    (popWord (pushWord w s)).2 = { s with mem := (pushWord w s).mem, cycles := s.cycles + 4 }

/-- R43: after N pushes and N pops, N at most 256, the stack pointer is where it was and the bytes come back in reverse order. The
bound is the spec's own derivation from R40. -/
def Obligations.PushesArePoppedInReverse : Prop :=
  ∀ (vs : List Byte) (s : State), vs.length ≤ 256 →
    (popMany vs.length (pushAll vs s)).1 = vs.reverse ∧ (popMany vs.length (pushAll vs s)).2.sp = s.sp

/-- R17: `SetZN(v)` sets Z iff `v` is zero and N to bit 7 of `v`, and writes no other flag. -/
def Obligations.SetZNWritesZeroAndNegative : Prop :=
  ∀ (v : Byte) (f : Flags), setZN v f = { f with z := decide (v.toNat = 0), n := v.getLsbD 7 }

/-! ### Addressing modes -/

/-- R53 to R55, and of R52 the value and the cost: the immediate operand is the fetched byte; zero-page addresses lie in page 0,
the indexed ones wrapping modulo 256; an absolute address is the operand word; resolution costs 1, 1, 2 and 2 cycles, changes only
`PC` and the count, and never crosses a page. -/
def Obligations.DirectModesResolve : Prop :=
  ∀ (s : State) (v b : Byte) (w : Word),
    (operandValue (.immediate v) s = v ∧
      afterOperand (.immediate v) s = { s with pc := s.pc + 1, cycles := s.cycles + 1 }) ∧
    ((effectiveAddress (.zeroPage b) s).toNat = b.toNat ∧ pageCrossed (.zeroPage b) s = false ∧
      afterResolve (.zeroPage b) s = { s with pc := s.pc + 1, cycles := s.cycles + 1 }) ∧
    ((effectiveAddress (.zeroPageX b) s).toNat = (b.toNat + s.x.toNat) % 256 ∧ pageCrossed (.zeroPageX b) s = false ∧
      afterResolve (.zeroPageX b) s = { s with pc := s.pc + 1, cycles := s.cycles + 2 }) ∧
    ((effectiveAddress (.zeroPageY b) s).toNat = (b.toNat + s.y.toNat) % 256 ∧ pageCrossed (.zeroPageY b) s = false ∧
      afterResolve (.zeroPageY b) s = { s with pc := s.pc + 1, cycles := s.cycles + 2 }) ∧
    (effectiveAddress (.absolute w) s = w ∧ pageCrossed (.absolute w) s = false ∧
      afterResolve (.absolute w) s = { s with pc := s.pc + 2, cycles := s.cycles + 2 })

/-- R56: absolute,X and absolute,Y add the index modulo 65536, and `p` is 1 exactly if the sum's high byte differs from the
base's; 2 cycles before `p`. That the sum is modulo 65536 at the top is the spec's own derivation. -/
def Obligations.IndexedAbsoluteModesResolve : Prop :=
  ∀ (s : State) (w : Word),
    ((effectiveAddress (.absoluteX w) s).toNat = (w.toNat + s.x.toNat) % 65536 ∧
      pageCrossed (.absoluteX w) s = decide (((w.toNat + s.x.toNat) % 65536) / 256 ≠ w.toNat / 256) ∧
      afterResolve (.absoluteX w) s = { s with pc := s.pc + 2, cycles := s.cycles + 2 }) ∧
    ((effectiveAddress (.absoluteY w) s).toNat = (w.toNat + s.y.toNat) % 65536 ∧
      pageCrossed (.absoluteY w) s = decide (((w.toNat + s.y.toNat) % 65536) / 256 ≠ w.toNat / 256) ∧
      afterResolve (.absoluteY w) s = { s with pc := s.pc + 2, cycles := s.cycles + 2 })

/-- R57, R58: the pre-indexed mode reads its address from the vector `b + X` modulo 256, the post-indexed one adds `Y` to the word
read from the vector `b`; 4 and 3 cycles before `p`. The vector's high byte is at the vector's address plus one even for the
vector 0x00FF: the spec's decision D7. -/
def Obligations.IndirectModesResolve : Prop :=
  ∀ (s : State) (b : Byte),
    ((effectiveAddress (.indirectX b) s).toNat =
        (byteAt s (BitVec.ofNat 16 ((b.toNat + s.x.toNat) % 256 + 1))).toNat * 256 +
          (byteAt s (BitVec.ofNat 16 ((b.toNat + s.x.toNat) % 256))).toNat ∧
      pageCrossed (.indirectX b) s = false ∧
      afterResolve (.indirectX b) s = { s with pc := s.pc + 1, cycles := s.cycles + 4 }) ∧
    (∀ base, base = (byteAt s (BitVec.ofNat 16 (b.toNat + 1))).toNat * 256 + (byteAt s (BitVec.ofNat 16 b.toNat)).toNat →
      (effectiveAddress (.indirectY b) s).toNat = (base + s.y.toNat) % 65536 ∧
      pageCrossed (.indirectY b) s = decide (((base + s.y.toNat) % 65536) / 256 ≠ base / 256) ∧
      afterResolve (.indirectY b) s = { s with pc := s.pc + 1, cycles := s.cycles + 3 })

/-! ### Load and store -/

/-- R100 to R102: each form of LDA, LDX, LDY loads its register with its operand, sets Z and N from it and changes nothing else
but `PC` and the count. The opcode bytes are the spec's decision D1, the totals its decision D10. -/
def Obligations.LoadsWriteTheirRegister : Prop :=
  ∀ (i : Instr) (opc : Byte) (o : Operand) (s : State), readForm i = some (opc, o) →
    encode i = opc :: operandBytes o ∧
    (mnemonic i = .lda → exec i s = .next { s with
      a := operandValue o s, flags := flagsZN (operandValue o s) s.flags
      pc := nextPC i s, cycles := s.cycles + readCycles o s }) ∧
    (mnemonic i = .ldx → exec i s = .next { s with
      x := operandValue o s, flags := flagsZN (operandValue o s) s.flags
      pc := nextPC i s, cycles := s.cycles + readCycles o s }) ∧
    (mnemonic i = .ldy → exec i s = .next { s with
      y := operandValue o s, flags := flagsZN (operandValue o s) s.flags
      pc := nextPC i s, cycles := s.cycles + readCycles o s })

/-- R103 to R105: each form of STA, STX, STY stores its register at its effective address and changes no other byte of memory, no
register and no flag. The opcode bytes are the spec's decision D1, the totals its decisions D10 and D15. -/
def Obligations.StoresWriteOneCell : Prop :=
  ∀ (i : Instr) (opc : Byte) (m : AddrMode) (v : Byte) (s : State), storeForm i = some (opc, m) →
    (mnemonic i = .sta ∧ v = s.a ∨ mnemonic i = .stx ∧ v = s.x ∨ mnemonic i = .sty ∧ v = s.y) →
    encode i = opc :: modeBytes m ∧
    ∃ t, exec i s = .next t ∧
      (∀ q, byteAt t q = if q = effectiveAddress m s then v else byteAt s q) ∧
      t = { s with mem := t.mem, pc := nextPC i s, cycles := s.cycles + storeCycles m }

/-! ### Transfers -/

/-- R110 to R115: TAX, TAY, TXA, TYA, TSX copy their source to their destination, set Z and N from it and change nothing else but
`PC` and the count; TXS copies X to `SP` and writes no flag, which is the spec's decision D11 (log entry 10). The opcode bytes are
its decision D1, the totals its decision D10. -/
def Obligations.TransfersCopyRegisters : Prop :=
  ∀ s : State,
    (encode .tax = [0xAA] ∧ exec .tax s = .next { s with
      x := s.a, flags := flagsZN s.a s.flags, pc := s.pc + 1, cycles := s.cycles + 2 }) ∧
    (encode .tay = [0xA8] ∧ exec .tay s = .next { s with
      y := s.a, flags := flagsZN s.a s.flags, pc := s.pc + 1, cycles := s.cycles + 2 }) ∧
    (encode .txa = [0x8A] ∧ exec .txa s = .next { s with
      a := s.x, flags := flagsZN s.x s.flags, pc := s.pc + 1, cycles := s.cycles + 2 }) ∧
    (encode .tya = [0x98] ∧ exec .tya s = .next { s with
      a := s.y, flags := flagsZN s.y s.flags, pc := s.pc + 1, cycles := s.cycles + 2 }) ∧
    (encode .tsx = [0xBA] ∧ exec .tsx s = .next { s with
      x := s.sp, flags := flagsZN s.sp s.flags, pc := s.pc + 1, cycles := s.cycles + 2 }) ∧
    (encode .txs = [0x9A] ∧ exec .txs s = .next { s with sp := s.x, pc := s.pc + 1, cycles := s.cycles + 2 })

/-! ### Stack instructions -/

/-- R120, R122: PHA stores A at `0x0100 + SP` and decrements `SP`, with no flag; PLA increments `SP`, loads A from there and sets
Z and N. PLA's flags are the spec's decision D11, the opcode bytes D1, the totals D10. -/
def Obligations.PhaAndPlaMoveTheAccumulator : Prop :=
  ∀ s : State,
    (encode .pha = [0x48] ∧ ∃ t, exec .pha s = .next t ∧
      (∀ q, byteAt t q = if q = stackAddress s.sp then s.a else byteAt s q) ∧
      t = { s with mem := t.mem, sp := s.sp - 1, pc := s.pc + 1, cycles := s.cycles + 3 }) ∧
    (encode .pla = [0x68] ∧ ∀ v, v = byteAt s (stackAddress (s.sp + 1)) →
      exec .pla s = .next { s with
        a := v, flags := flagsZN v s.flags, sp := s.sp + 1, pc := s.pc + 1, cycles := s.cycles + 4 })

/-- R121: PHP stores `N V 1 1 D I Z C`, bit 7 first, at `0x0100 + SP`, decrements `SP` and writes no flag. The bit order is the
spec's decision D3, the two forced bits its decision D4 (log entries 8 and 9). -/
def Obligations.PhpPushesTheStatusByte : Prop :=
  ∀ s : State, encode .php = [0x08] ∧
    ∃ t p, exec .php s = .next t ∧
      (∀ q, byteAt t q = if q = stackAddress s.sp then p else byteAt s q) ∧
      (p.getLsbD 0 = s.flags.c ∧ p.getLsbD 1 = s.flags.z ∧ p.getLsbD 2 = s.flags.i ∧ p.getLsbD 3 = s.flags.d ∧
        p.getLsbD 4 = true ∧ p.getLsbD 5 = true ∧ p.getLsbD 6 = s.flags.v ∧ p.getLsbD 7 = s.flags.n) ∧
      t = { s with mem := t.mem, sp := s.sp - 1, pc := s.pc + 1, cycles := s.cycles + 3 }

/-- R123: PLP increments `SP` and loads C, Z, I, D, V, N from bits 0, 1, 2, 3, 6, 7 of the byte there; B and U keep their values.
The bit order is the spec's decision D3, B and U its decision D4 (log entries 8 and 9). -/
def Obligations.PlpPullsSixFlags : Prop :=
  ∀ (s : State) (v : Byte), v = byteAt s (stackAddress (s.sp + 1)) →
    encode .plp = [0x28] ∧
    exec .plp s = .next { s with
      flags := { s.flags with
        c := v.getLsbD 0, z := v.getLsbD 1, i := v.getLsbD 2, d := v.getLsbD 3, v := v.getLsbD 6, n := v.getLsbD 7 }
      sp := s.sp + 1, pc := s.pc + 1, cycles := s.cycles + 4 }

/-- PHP then PLP restores the flags and `SP`; the stack slot keeps the byte pushed. For C, Z, I, D, V, N and `SP` this is R123's
own derivation; that `B` and `U` are kept rests on the open parameter `PLP_WRITES_B_U` at its value false, the spec's decision D4
(log entry 9). -/
def Obligations.PhpThenPlpRestoresFlags : Prop :=
  ∀ s : State, ∃ t u, exec .php s = .next t ∧ exec .plp t = .next u ∧
    u = { s with mem := t.mem, pc := s.pc + 2, cycles := s.cycles + 7 }

/-- The open parameters (the spec's U5 and U6, log entries 9 and 10) change nothing but what they name. Whichever bits PHP forces
among bits 4 and 5: the six other bits of the byte pushed are the same, every cell but the stack slot keeps its byte, and every
register and flag and the count are the same. Whether or not PLP loads B and U: everything but these two flags is the same.
Whether or not TXS sets Z and N: everything but these two flags is the same. -/
def Obligations.OpenParametersStayLocal : Prop :=
  ∀ (s : State) (forced : Byte), forced &&& 0xCF = 0 →
    (∀ k, k ≠ 4 → k ≠ 5 →
      (byteAt (pushStatus forced s) (stackAddress s.sp)).getLsbD k =
        (byteAt (pushStatus 0x30 s) (stackAddress s.sp)).getLsbD k) ∧
    (∀ q, q ≠ stackAddress s.sp → byteAt (pushStatus forced s) q = byteAt s q) ∧
    pushStatus forced s = { pushStatus 0x30 s with mem := (pushStatus forced s).mem } ∧
    pullStatus true s = { pullStatus false s with flags :=
      { (pullStatus false s).flags with b := (pullStatus true s).flags.b, u := (pullStatus true s).flags.u } } ∧
    transferXToSP true s = { transferXToSP false s with flags := flagsZN s.x s.flags }

/-! ### Logical -/

/-- R130 to R132: each form of AND, ORA, EOR leaves the bitwise result in A, sets Z and N from it and changes nothing else but
`PC` and the count. The opcode bytes are the spec's decision D1, the totals its decision D10. -/
def Obligations.LogicalWritesTheAccumulator : Prop :=
  ∀ (i : Instr) (opc : Byte) (o : Operand) (r : Byte) (s : State), readForm i = some (opc, o) →
    (mnemonic i = .and ∧ r = s.a &&& operandValue o s ∨ mnemonic i = .ora ∧ r = s.a ||| operandValue o s ∨
      mnemonic i = .eor ∧ r = s.a ^^^ operandValue o s) →
    encode i = opc :: operandBytes o ∧
    exec i s = .next { s with
      a := r, flags := flagsZN r s.flags, pc := nextPC i s, cycles := s.cycles + readCycles o s }

/-- R133: both forms of BIT set Z from `A & m` and N and V from bits 7 and 6 of the memory operand, and never modify A. -/
def Obligations.BitTestsMemory : Prop :=
  ∀ (i : Instr) (opc : Byte) (o : Operand) (s : State), readForm i = some (opc, o) → mnemonic i = .bit →
    encode i = opc :: operandBytes o ∧
    exec i s = .next { s with
      flags := { s.flags with
        z := decide (s.a &&& operandValue o s = 0)
        n := (operandValue o s).getLsbD 7
        v := (operandValue o s).getLsbD 6 }
      pc := nextPC i s, cycles := s.cycles + readCycles o s }

/-! ### Increment and decrement -/

/-- R140, R141: each form of INC and DEC adds or subtracts 1 modulo 256 in the cell at its effective address, sets Z and N from
the result and changes no other byte, register or flag. The opcode bytes are the spec's decision D1, the totals its decision D10.
-/
def Obligations.IncAndDecModifyOneCell : Prop :=
  ∀ (i : Instr) (opc : Byte) (m : AddrMode) (r : Byte) (s : State), modifyForm i = some (opc, m) →
    (mnemonic i = .inc ∧ r.toNat = ((byteAt s (effectiveAddress m s)).toNat + 1) % 256 ∨
      mnemonic i = .dec ∧ r.toNat = ((byteAt s (effectiveAddress m s)).toNat + 255) % 256) →
    encode i = opc :: modeBytes m ∧
    ∃ t, exec i s = .next t ∧
      (∀ q, byteAt t q = if q = effectiveAddress m s then r else byteAt s q) ∧
      t = { s with mem := t.mem, flags := flagsZN r s.flags, pc := nextPC i s, cycles := s.cycles + modifyCycles m }

/-- R142 to R145: INX, INY, DEX, DEY add or subtract 1 modulo 256 in their register, set Z and N from the result and change
nothing else but `PC` and the count. The opcode bytes are the spec's decision D1, the totals its decision D10. -/
def Obligations.RegisterStepsWrap : Prop :=
  ∀ (s : State) (r : Byte),
    (r.toNat = (s.x.toNat + 1) % 256 → encode .inx = [0xE8] ∧ exec .inx s = .next { s with
      x := r, flags := flagsZN r s.flags, pc := s.pc + 1, cycles := s.cycles + 2 }) ∧
    (r.toNat = (s.y.toNat + 1) % 256 → encode .iny = [0xC8] ∧ exec .iny s = .next { s with
      y := r, flags := flagsZN r s.flags, pc := s.pc + 1, cycles := s.cycles + 2 }) ∧
    (r.toNat = (s.x.toNat + 255) % 256 → encode .dex = [0xCA] ∧ exec .dex s = .next { s with
      x := r, flags := flagsZN r s.flags, pc := s.pc + 1, cycles := s.cycles + 2 }) ∧
    (r.toNat = (s.y.toNat + 255) % 256 → encode .dey = [0x88] ∧ exec .dey s = .next { s with
      y := r, flags := flagsZN r s.flags, pc := s.pc + 1, cycles := s.cycles + 2 })

/-! ### Jumps, call and return -/

/-- R150, R151: JMP goes to its operand, or to the word its operand points to, and changes nothing else but the count. The
pointer's high byte is at the next address modulo 65536 even for a pointer ending in 0xFF: the spec's decision D8 (log entry 13).
-/
def Obligations.JumpsSetPC : Prop :=
  ∀ (s : State) (w target : Word),
    (encode (.jmpAbs w) = [0x4C, loByte w, hiByte w] ∧
      exec (.jmpAbs w) s = .next { s with pc := w, cycles := s.cycles + 3 }) ∧
    (encode (.jmpInd w) = [0x6C, loByte w, hiByte w] ∧
      (target.toNat = (byteAt s (w + 1)).toNat * 256 + (byteAt s w).toNat →
        exec (.jmpInd w) s = .next { s with pc := target, cycles := s.cycles + 5 }))

/-- R152: JSR pushes the address of its own last byte, high byte first, and jumps to its operand; no other byte, register or flag
changes. The order of fetch and push is the spec's decision D19 (log entry 14). -/
def Obligations.JsrPushesItsLastAddress : Prop :=
  ∀ (s : State) (w : Word), encode (.jsr w) = [0x20, loByte w, hiByte w] ∧
    ∃ t, exec (.jsr w) s = .next t ∧
      (∀ q, byteAt t q =
        if q = stackAddress s.sp then BitVec.ofNat 8 ((s.pc + 2).toNat / 256)
        else if q = stackAddress (s.sp - 1) then BitVec.ofNat 8 ((s.pc + 2).toNat % 256)
        else byteAt s q) ∧
      t = { s with mem := t.mem, sp := s.sp - 2, pc := w, cycles := s.cycles + 6 }

/-- R153: RTS pops a word, low byte first, and goes to the address after it; nothing else changes but `SP` and the count. -/
def Obligations.RtsReturnsPastThePoppedWord : Prop :=
  ∀ (s : State) (target : Word),
    target.toNat = ((byteAt s (stackAddress (s.sp + 2))).toNat * 256 + (byteAt s (stackAddress (s.sp + 1))).toNat + 1) % 65536 →
    encode .rts = [0x60] ∧
    exec .rts s = .next { s with pc := target, sp := s.sp + 2, cycles := s.cycles + 6 }

/-- R153's worked example, for every state and target: JSR from `P` then RTS leaves `SP` as before the JSR and `PC = P + 3`, in 12
cycles; registers and flags are as before, and memory as JSR left it. -/
def Obligations.CallThenReturnRestoresSP : Prop :=
  ∀ (s : State) (w : Word), ∃ t u, exec (.jsr w) s = .next t ∧ exec .rts t = .next u ∧
    u = { s with mem := t.mem, pc := s.pc + 3, cycles := s.cycles + 12 }

/-! ### Branches -/

/-- R160: the branch operation fetches its displacement in any case; taken, it goes to the next instruction's address plus the
signed displacement modulo 65536 and costs 3 cycles, or 4 if that lies in another page than the next instruction; not taken, it
costs 2. Nothing else changes. -/
def Obligations.BranchOperationMovesPC : Prop :=
  ∀ (off : Byte) (s : State) (next : Word), next = s.pc + 2 →
    branchIf false off s = { s with pc := next, cycles := s.cycles + 2 } ∧
    ((branchIf true off s).pc.toNat : Int) = (next.toNat + signed8 off) % 65536 ∧
    branchIf true off s = { s with
      pc := (branchIf true off s).pc
      cycles := s.cycles + 3 + (if (branchIf true off s).pc.toNat / 256 ≠ next.toNat / 256 then 1 else 0) }

/-- R161 to R168: each branch is taken exactly if its flag has its value, and changes nothing but `PC` and the count. The opcode
bytes are the spec's decision D1; flag and polarity of each mnemonic are the spec's general knowledge (G4). -/
def Obligations.BranchesTestTheirFlag : Prop :=
  ∀ (i : Instr) (opc off : Byte) (taken : Bool) (s : State), branchForm i s.flags = some (opc, off, taken) →
    encode i = [opc, off] ∧
    exec i s = .next (if taken then { s with
      pc := s.pc + 2 + off.signExtend 16
      cycles := s.cycles + 3 + (if (s.pc + 2 + off.signExtend 16).toNat / 256 ≠ (s.pc + 2).toNat / 256 then 1 else 0) }
    else { s with pc := s.pc + 2, cycles := s.cycles + 2 })

/-! ### Arithmetic and compare -/

/-- R170: each form of ADC leaves `(A + m + C) mod 256` in A, C the carry out of bit 7, V the signed overflow by the signs, Z and
N of the result; binary whatever D holds, which is the spec's decision D6 (log entry 11). Nothing else changes but `PC` and the
count. -/
def Obligations.AdcAddsWithCarry : Prop :=
  ∀ (i : Instr) (opc : Byte) (o : Operand) (r m : Byte) (sum : Nat) (s : State), readForm i = some (opc, o) → mnemonic i = .adc →
    m = operandValue o s → sum = s.a.toNat + m.toNat + s.flags.c.toNat → r.toNat = sum % 256 →
    encode i = opc :: operandBytes o ∧
    exec i s = .next { s with
      a := r
      flags := { s.flags with
        c := decide (255 < sum)
        v := decide (s.a.getLsbD 7 = m.getLsbD 7 ∧ r.getLsbD 7 ≠ s.a.getLsbD 7)
        z := decide (r = 0), n := r.getLsbD 7 }
      pc := nextPC i s, cycles := s.cycles + readCycles o s }

/-- R171: each form of SBC leaves `A - m - (1 - C)` modulo 256 in A, C set iff no borrow, V the signed overflow by the signs, Z
and N of the result; binary whatever D holds, which is the spec's decision D6 (log entry 11). Nothing else changes but `PC` and
the count. -/
def Obligations.SbcSubtractsWithBorrow : Prop :=
  ∀ (i : Instr) (opc : Byte) (o : Operand) (r m : Byte) (borrow : Nat) (s : State), readForm i = some (opc, o) → mnemonic i = .sbc →
    m = operandValue o s → borrow = 1 - s.flags.c.toNat → r.toNat = (s.a.toNat + 512 - m.toNat - borrow) % 256 →
    encode i = opc :: operandBytes o ∧
    exec i s = .next { s with
      a := r
      flags := { s.flags with
        c := decide (m.toNat + borrow ≤ s.a.toNat)
        v := decide (s.a.getLsbD 7 ≠ m.getLsbD 7 ∧ r.getLsbD 7 ≠ s.a.getLsbD 7)
        z := decide (r = 0), n := r.getLsbD 7 }
      pc := nextPC i s, cycles := s.cycles + readCycles o s }

/-- The first-principles reading of V that the source asks for, for ADC and for SBC, carry in clear or set (R170's and R171's own
derivations, C2): V is set exactly when the exact signed sum or difference lies outside -128 to 127, and when it does not, the
result reads as that exact value. -/
def Obligations.OverflowIsSignedOverflow : Prop :=
  ∀ (a m : Byte) (carry : Bool) (sum diff : Int),
    sum = signed8 a + signed8 m + carry.toNat → diff = signed8 a - signed8 m - (1 - carry.toNat) →
    addOverflow a m carry = decide (sum < -128 ∨ 127 < sum) ∧
    addOverflow a (onesComplement m) carry = decide (diff < -128 ∨ 127 < diff) ∧
    (addOverflow a m carry = false → signed8 (addResult a m carry) = sum) ∧
    (addOverflow a (onesComplement m) carry = false → signed8 (addResult a (onesComplement m) carry) = diff)

/-- R172 to R174: each form of CMP, CPX, CPY sets C iff the register is at least the operand as an unsigned number, Z iff they are
equal, N to bit 7 of the difference; no register and no other flag changes. What the compares compute is the spec's decision D16.
-/
def Obligations.ComparesWriteThreeFlags : Prop :=
  ∀ (i : Instr) (opc : Byte) (o : Operand) (reg m diff : Byte) (s : State), readForm i = some (opc, o) →
    (mnemonic i = .cmp ∧ reg = s.a ∨ mnemonic i = .cpx ∧ reg = s.x ∨ mnemonic i = .cpy ∧ reg = s.y) →
    m = operandValue o s → diff.toNat = (reg.toNat + 256 - m.toNat) % 256 →
    encode i = opc :: operandBytes o ∧
    exec i s = .next { s with
      flags := { s.flags with c := decide (m.toNat ≤ reg.toNat), z := decide (reg = m), n := diff.getLsbD 7 }
      pc := nextPC i s, cycles := s.cycles + readCycles o s }

/-! ### Flag instructions and NOP -/

/-- R180 to R187: each flag instruction writes its one flag with its constant, NOP writes none; nothing else changes but `PC` and
the count. The opcode bytes are the spec's decision D1, the totals its decision D10. -/
def Obligations.FlagInstructionsWriteOneFlag : Prop :=
  ∀ s : State,
    (encode .clc = [0x18] ∧ exec .clc s = .next { s with
      flags := { s.flags with c := false }, pc := s.pc + 1, cycles := s.cycles + 2 }) ∧
    (encode .cld = [0xD8] ∧ exec .cld s = .next { s with
      flags := { s.flags with d := false }, pc := s.pc + 1, cycles := s.cycles + 2 }) ∧
    (encode .cli = [0x58] ∧ exec .cli s = .next { s with
      flags := { s.flags with i := false }, pc := s.pc + 1, cycles := s.cycles + 2 }) ∧
    (encode .clv = [0xB8] ∧ exec .clv s = .next { s with
      flags := { s.flags with v := false }, pc := s.pc + 1, cycles := s.cycles + 2 }) ∧
    (encode .sec = [0x38] ∧ exec .sec s = .next { s with
      flags := { s.flags with c := true }, pc := s.pc + 1, cycles := s.cycles + 2 }) ∧
    (encode .sed = [0xF8] ∧ exec .sed s = .next { s with
      flags := { s.flags with d := true }, pc := s.pc + 1, cycles := s.cycles + 2 }) ∧
    (encode .sei = [0x78] ∧ exec .sei s = .next { s with
      flags := { s.flags with i := true }, pc := s.pc + 1, cycles := s.cycles + 2 }) ∧
    (encode .nop = [0xEA] ∧ exec .nop s = .next { s with pc := s.pc + 1, cycles := s.cycles + 2 })

/-! ### Whole-machine rules -/

/-- R202, R240: no instruction raises anything: every one completes from every state, costs 2 to 7 cycles, and leaves the halt
latch and the fault record alone. The totals are the spec's decision D10. -/
def Obligations.EveryInstructionCompletes : Prop :=
  ∀ (i : Instr) (s : State), ∃ t, exec i s = .next t ∧
    s.cycles + 2 ≤ t.cycles ∧ t.cycles ≤ s.cycles + 7 ∧
    t.halted = s.halted ∧ t.faultAddr = s.faultAddr ∧ t.faultOp = s.faultOp

/-- R15: a flag that an instruction changes is one R15 lists it as a writer of; B and U are written by none. TXS, PLA and PLP as
the spec's decisions D11 and D4. -/
def Obligations.FlagsHaveOnlyTheirWriters : Prop :=
  ∀ (i : Instr) (s t : State), exec i s = .next t →
    (t.flags.c ≠ s.flags.c → mnemonic i ∈ [.adc, .sbc, .cmp, .cpx, .cpy, .clc, .sec, .plp]) ∧
    (t.flags.z ≠ s.flags.z ∨ t.flags.n ≠ s.flags.n → mnemonic i ∈
      [.lda, .ldx, .ldy, .tax, .tay, .txa, .tya, .tsx, .pla, .and, .ora, .eor, .bit, .inc, .dec, .inx, .iny, .dex, .dey,
        .adc, .sbc, .cmp, .cpx, .cpy, .plp]) ∧
    (t.flags.i ≠ s.flags.i → mnemonic i ∈ [.sei, .cli, .plp]) ∧
    (t.flags.d ≠ s.flags.d → mnemonic i ∈ [.sed, .cld, .plp]) ∧
    (t.flags.v ≠ s.flags.v → mnemonic i ∈ [.adc, .sbc, .bit, .clv, .plp]) ∧
    t.flags.b = s.flags.b ∧ t.flags.u = s.flags.u

/-- R11, R12, R13: a register that an instruction changes is one the rules list it as a writer of, and `PC` advances by the
instruction's length except by branches, JMP, JSR and RTS. -/
def Obligations.RegistersHaveOnlyTheirWriters : Prop :=
  ∀ (i : Instr) (s t : State), exec i s = .next t →
    (t.a ≠ s.a → mnemonic i ∈ [.lda, .txa, .tya, .pla, .and, .ora, .eor, .adc, .sbc]) ∧
    (t.x ≠ s.x → mnemonic i ∈ [.ldx, .tax, .tsx, .inx, .dex]) ∧
    (t.y ≠ s.y → mnemonic i ∈ [.ldy, .tay, .iny, .dey]) ∧
    (t.sp ≠ s.sp → mnemonic i ∈ [.txs, .pha, .php, .pla, .plp, .jsr, .rts]) ∧
    (t.pc ≠ nextPC i s → mnemonic i ∈ [.beq, .bne, .bcs, .bcc, .bmi, .bpl, .bvs, .bvc, .jmp, .jsr, .rts])

/-- R20, R13: a byte of memory that an instruction changes is changed by a store, a push, JSR, INC or DEC, and by a push or JSR
only inside the stack page 0x0100 to 0x01FF. -/
def Obligations.MemoryHasOnlyItsWriters : Prop :=
  ∀ (i : Instr) (s t : State) (q : Word), exec i s = .next t → byteAt t q ≠ byteAt s q →
    mnemonic i ∈ [.sta, .stx, .sty, .pha, .php, .jsr, .inc, .dec] ∧
    (mnemonic i ∈ [.pha, .php, .jsr] → 0x0100 ≤ q.toNat ∧ q.toNat ≤ 0x01FF)

/-- R170, R205: the decimal and interrupt-disable flags influence no instruction but those that move or write them, and the break
and unused flags influence none. D6, D18 and D4 are the spec's decisions. -/
def Obligations.StoredFlagsInfluenceNothing : Prop :=
  ∀ (i : Instr) (s t : State) (value : Bool), exec i s = .next t →
    (mnemonic i ∉ [.php, .plp, .cld, .sed] →
      exec i { s with flags := { s.flags with d := value } } = .next { t with flags := { t.flags with d := value } }) ∧
    (mnemonic i ∉ [.php, .plp, .cli, .sei] →
      exec i { s with flags := { s.flags with i := value } } = .next { t with flags := { t.flags with i := value } }) ∧
    exec i { s with flags := { s.flags with b := value } } = .next { t with flags := { t.flags with b := value } } ∧
    exec i { s with flags := { s.flags with u := value } } = .next { t with flags := { t.flags with u := value } }

/-- R226, R241: a step does not depend on the cycle count. From a state that differs only there, a step that runs an instruction
gives the same next state, its count as much greater as before; a step that halts the core halts it with the same fault record,
registers, flags and memory. Of the halted core's `PC` and count nothing is said, since no claim may read them (R201, U9, log
entry 5). -/
def Obligations.StepIgnoresTheCycleCount : Prop :=
  ∀ (s t : State) (n : Nat), step s = .next t →
    (t.halted = false → step { s with cycles := s.cycles + n } = .next { t with cycles := t.cycles + n }) ∧
    (t.halted = true → ∃ u, step { s with cycles := s.cycles + n } = .next u ∧ u = { t with pc := u.pc, cycles := u.cycles })

/-- R46: a store is seen by the very next fetch: if STA, STX or STY stores at the address of the instruction after it, the next
instruction fetched begins with the byte stored. -/
def Obligations.StoreIsSeenByTheNextFetch : Prop :=
  ∀ (i : Instr) (opc : Byte) (m : AddrMode) (s t : State), storeForm i = some (opc, m) →
    effectiveAddress m s = nextPC i s → exec i s = .next t →
    ∃ v, (mnemonic i = .sta ∧ v = s.a ∨ mnemonic i = .stx ∧ v = s.x ∨ mnemonic i = .sty ∧ v = s.y) ∧
      fetchInstr t = decodeAt v (byteAt s (t.pc + 1)) (byteAt s (t.pc + 2))

/-! ### Runs -/

/-- R225, R204, R208: a run of the idle core that returns has used at least its budget and at most 6 cycles more, leaves the core
idle and keeps no count; a run with budget 0 fetches nothing. The bound 6 is the spec's own derivation from its decision D10. That
the count which is not kept reads 0 in the model's state is the model's choice (DESIGN CHOICE, log entry 3). -/
def Obligations.RunUsesItsBudget : Prop :=
  ∀ (budget : Nat) (s : State), s.Idle →
    (∀ used t, execute budget s = .returned used t →
      budget ≤ used ∧ used ≤ budget + 6 ∧ t.cycles = 0 ∧ t.Idle) ∧
    execute 0 s = .returned 0 { s with cycles := 0 }

/-- R227: a run ends in exactly one of two ways: normally, or by the fault, with the core halted and the report its fault record.
-/
def Obligations.RunReturnsOrFaults : Prop :=
  ∀ (budget : Nat) (s : State),
    (∃ used t, execute budget s = .returned used t ∧ t.Idle) ∨
    (∃ t, execute budget s = .faulted t.faultAddr t.faultOp t ∧ t.halted = true)

/-- R211: `execute(1)` runs exactly one instruction, if the one at `PC` is recognised, and returns the cycles it consumed, counted
from 0; the core keeps no count (R208), which reads 0 in the model's state by the model's choice (DESIGN CHOICE, log entry 3). -/
def Obligations.RunOfOneIsOneStep : Prop :=
  ∀ (s t : State) (i : Instr), s.Idle → fetchInstr s = some i → exec i { s with cycles := 0 } = .next t →
    execute 1 s = .returned t.cycles { t with cycles := 0 }

/-- Two runs make one: running on with a second budget reaches the state, and the sum of the counts, of the single run whose
budget is the cycles the first used plus the second budget (95_test_vectors.md section 4, from R225). Neither state keeps a count
(R208); that it reads 0 in both is the model's choice (DESIGN CHOICE, log entry 3). -/
def Obligations.RunsCompose : Prop :=
  ∀ (b₁ b₂ u₁ u₂ : Nat) (s t u : State), s.Idle →
    execute b₁ s = .returned u₁ t → execute b₂ t = .returned u₂ u →
    execute (u₁ + b₂) s = .returned (u₁ + u₂) u

/-! ### The host -/

/-- R230: a write through the state access port changes exactly the item written and consumes no cycle; a halted core refuses it
(the spec's decision D17). -/
def Obligations.HostWritesOneItem : Prop :=
  ∀ (s : State) (w : Word) (v : Byte) (name : FlagName) (value : Bool),
    (s.Idle →
      hostWrite (.pc w) s = .next { s with pc := w } ∧
      hostWrite (.sp v) s = .next { s with sp := v } ∧
      hostWrite (.a v) s = .next { s with a := v } ∧
      hostWrite (.x v) s = .next { s with x := v } ∧
      hostWrite (.y v) s = .next { s with y := v } ∧
      (∃ t, hostWrite (.flag name value) s = .next t ∧ t = { s with flags := t.flags } ∧
        ∀ g, getFlag g t.flags = if g = name then value else getFlag g s.flags) ∧
      (∃ t, hostWrite (.cell w v) s = .next t ∧ t = { s with mem := t.mem } ∧
        ∀ q, byteAt t q = if q = w then v else byteAt s q)) ∧
    (s.halted = true → ∀ req, hostWrite req s = .refused .hostWriteWhileHalted)

/-- R231: `load_program` copies the bytes after the first two to the address those two name, low byte first, sets `PC` to it and
changes nothing else. An image of fewer than two bytes or past 0xFFFF is refused: the spec's decision D14 (log entry 16). -/
def Obligations.LoadProgramCopiesItsBody : Prop :=
  ∀ (s : State) (lo hi : Byte) (body : List Byte), s.Idle →
    ((joinBytes hi lo).toNat + body.length ≤ 65536 →
      ∃ t, loadProgram (lo :: hi :: body) s = .next t ∧ t = { s with mem := t.mem, pc := joinBytes hi lo } ∧
        ∀ q, byteAt t q =
          if (joinBytes hi lo).toNat ≤ q.toNat then body.getD (q.toNat - (joinBytes hi lo).toNat) (byteAt s q)
          else byteAt s q) ∧
    (65536 < (joinBytes hi lo).toNat + body.length → loadProgram (lo :: hi :: body) s = .refused .imagePastTop) ∧
    loadProgram [lo] s = .refused .imageTooShort ∧ loadProgram [] s = .refused .imageTooShort
end

