-- ==== Sys2Proof/Laws/Decode.lean ====
section
/-! SUPPORT. How the list decoder follows from the opcode map, and what the opcode map says of lengths. -/

namespace Sys2Proof

open Sys2Proof.Machine

/-- The list decoder on an opcode in the map with enough bytes after it. -/
theorem decode_of_decodeAt {op : Byte} {rest : List Byte} {i : Instr}
    (h : decodeAt op (rest.getD 0 0) (rest.getD 1 0) = some i) (hl : instrLength i ≤ rest.length + 1) :
    decode (op :: rest) = .ok (i, rest.drop (instrLength i - 1)) := by
  simp only [decode, h, if_neg (Nat.not_lt.mpr hl)]

/-- What a successful decode says. -/
theorem decode_inv {bytes rest : List Byte} {i : Instr} (h : decode bytes = .ok (i, rest)) :
    ∃ op tl, bytes = op :: tl ∧ decodeAt op (tl.getD 0 0) (tl.getD 1 0) = some i ∧
      instrLength i ≤ tl.length + 1 ∧ rest = tl.drop (instrLength i - 1) := by
  cases bytes with
  | nil => cases h
  | cons op tl =>
    refine ⟨op, tl, rfl, ?_⟩
    simp only [decode] at h
    split at h
    · cases h
    · next j hj =>
      split at h
      · cases h
      · next hl =>
        simp only [Except.ok.injEq, Prod.mk.injEq] at h
        obtain ⟨rfl, rfl⟩ := h
        exact ⟨hj, Nat.not_lt.mp hl, rfl⟩

/-- The word operand of a decoded instruction, put back from its two bytes. -/
theorem decodeAt_word {op : Byte} {f : Word → Instr} (w : Word)
    (h : ∀ b1 b2, decodeAt op b1 b2 = some (f (joinBytes b2 b1))) : decodeAt op (loByte w) (hiByte w) = some (f w) := by
  rw [h, joinBytes_hiByte_loByte]

end Sys2Proof
end

