-- ==== Sys2Proof/Laws/Memory.lean ====
section
/-! SUPPORT. What a write of one cell does to every read, and that it keeps the canonical form. -/

namespace Sys2Proof.Machine

theorem Memory.read_without (m : Memory) (a q : Nat) :
    Memory.read (Memory.without m a) q = if q = a then Config.clearedByte else Memory.read m q := by
  induction m with
  | nil => simp [Memory.without, Memory.read]
  | cons c rest ih =>
    obtain ⟨k, v⟩ := c
    by_cases hk : k = a
    · subst hk
      have : Memory.without ((k, v) :: rest) k = Memory.without rest k := by simp [Memory.without]
      rw [this, ih]
      by_cases hq : q = k
      · simp [hq]
      · simp [Memory.read, hq, Ne.symm hq]
    · have : Memory.without ((k, v) :: rest) a = (k, v) :: Memory.without rest a := by simp [Memory.without, hk]
      rw [this]
      by_cases hkq : k = q
      · subst hkq; simp [Memory.read, hk]
      · simp [Memory.read, hkq, ih]

theorem Memory.read_place (m : Memory) (a : Nat) (v : Byte) (q : Nat) (h : ∀ c ∈ m, c.1 ≠ a) :
    Memory.read (Memory.place m a v) q = if q = a then v else Memory.read m q := by
  induction m with
  | nil => by_cases hq : a = q <;> simp [Memory.place, Memory.read, hq, eq_comm (a := q)]
  | cons c rest ih =>
    obtain ⟨k, w⟩ := c
    have hk : k ≠ a := h (k, w) (by simp)
    have ih := ih (fun c hc => h c (by simp [hc]))
    by_cases hlt : a < k
    · have e : Memory.place ((k, w) :: rest) a v = (a, v) :: (k, w) :: rest := by simp [Memory.place, hlt]
      rw [e]
      by_cases hq : a = q
      · simp [Memory.read, hq]
      · simp [Memory.read, hq, Ne.symm hq]
    · by_cases hkq : k = q
      · subst hkq; simp [Memory.place, Memory.read, hlt, hk]
      · simp [Memory.place, Memory.read, hlt, hkq, ih]

theorem Memory.without_ne (m : Memory) (a : Nat) : ∀ c ∈ Memory.without m a, c.1 ≠ a := by
  intro c hc
  simpa [Memory.without] using (List.mem_filter.mp hc).2

/-- A read after a write gives the byte written at its address and the old byte at every other. -/
theorem Memory.read_write (m : Memory) (a : Nat) (v : Byte) (q : Nat) :
    Memory.read (Memory.write m a v) q = if q = a then v else Memory.read m q := by
  unfold Memory.write
  split
  · next h => rw [Memory.read_without, h]
  · rw [Memory.read_place _ _ _ _ (Memory.without_ne m a), Memory.read_without]
    by_cases hq : q = a <;> simp [hq]

theorem Memory.wf_without {m : Memory} (h : Memory.wf m) (a : Nat) : Memory.wf (Memory.without m a) :=
  ⟨h.1.filter _, fun c hc => h.2 c (List.mem_filter.mp hc).1⟩

theorem Memory.mem_place {m : Memory} {a : Nat} {v : Byte} {c : Host.Cell} (h : c ∈ Memory.place m a v) :
    c = (a, v) ∨ c ∈ m := by
  induction m with
  | nil => simpa [Memory.place] using h
  | cons d rest ih =>
    unfold Memory.place at h
    split at h
    · simpa using h
    · rcases List.mem_cons.mp h with rfl | h
      · simp
      · rcases ih h with h | h <;> simp [h]

theorem Memory.wf_place {m : Memory} (h : Memory.wf m) {a : Nat} {v : Byte} (hm : ∀ c ∈ m, c.1 ≠ a)
    (ha : a < 65536) (hv : v ≠ Config.clearedByte) : Memory.wf (Memory.place m a v) := by
  refine ⟨?_, fun c hc => ?_⟩
  · induction m with
    | nil => simp [Memory.place]
    | cons d rest ih =>
      have hrest : Memory.wf rest := ⟨(List.pairwise_cons.mp h.1).2, fun c hc => h.2 c (by simp [hc])⟩
      have hd := (List.pairwise_cons.mp h.1).1
      have hne : d.1 ≠ a := hm d (by simp)
      unfold Memory.place
      split
      · next hlt =>
        refine List.pairwise_cons.mpr ⟨fun c hc => ?_, h.1⟩
        rcases List.mem_cons.mp hc with rfl | hc
        · exact hlt
        · exact Nat.lt_trans hlt (hd c hc)
      · next hlt =>
        refine List.pairwise_cons.mpr ⟨fun c hc => ?_, ih hrest (fun c hc => hm c (by simp [hc]))⟩
        rcases Memory.mem_place hc with rfl | hc
        · exact Nat.lt_of_le_of_ne (Nat.not_lt.mp hlt) hne
        · exact hd c hc
  · rcases Memory.mem_place hc with rfl | hc
    · exact ⟨hv, ha⟩
    · exact h.2 c hc

/-- A write at an address of the space keeps the canonical form. -/
theorem Memory.wf_write {m : Memory} (h : Memory.wf m) {a : Nat} (ha : a < 65536) (v : Byte) :
    Memory.wf (Memory.write m a v) := by
  unfold Memory.write
  split
  · exact Memory.wf_without h a
  · next hv => exact Memory.wf_place (Memory.wf_without h a) (Memory.without_ne m a) ha hv

theorem Memory.wf_nil : Memory.wf [] := ⟨List.Pairwise.nil, by simp⟩

/-- Copying bytes that end inside the space keeps the canonical form. -/
theorem Memory.wf_writeList {m : Memory} (h : Memory.wf m) (vs : List Byte) {a : Nat} (ha : a + vs.length ≤ 65536) :
    Memory.wf (Memory.writeList m a vs) := by
  induction vs generalizing m a with
  | nil => exact h
  | cons v vs ih =>
    simp only [List.length_cons] at ha
    exact ih (Memory.wf_write h (by omega) v) (by omega)

/-- A read after a copy gives the byte copied to its address and the old byte at every other. -/
theorem Memory.read_writeList (m : Memory) (a : Nat) (vs : List Byte) (q : Nat) :
    Memory.read (Memory.writeList m a vs) q = if a ≤ q then vs.getD (q - a) (Memory.read m q) else Memory.read m q := by
  induction vs generalizing m a with
  | nil => simp [Memory.writeList]
  | cons v vs ih =>
    simp only [Memory.writeList, ih, Memory.read_write]
    by_cases h1 : a + 1 ≤ q
    · have h2 : a ≤ q := by omega
      have h3 : q ≠ a := by omega
      have h4 : q - a = (q - (a + 1)) + 1 := by omega
      simp [h1, h2, h3, h4]
    · by_cases h2 : q = a
      · subst h2; simp
      · have h3 : ¬ a ≤ q := by omega
        simp [h1, h2, h3]

/-- A cell that a canonical memory does not list below its first address reads as cleared. -/
theorem Memory.read_of_forall_ne {m : Memory} {a : Nat} (h : ∀ c ∈ m, c.1 ≠ a) : Memory.read m a = Config.clearedByte := by
  induction m with
  | nil => rfl
  | cons c rest ih =>
    obtain ⟨k, v⟩ := c
    have hk : k ≠ a := h (k, v) (by simp)
    simp [Memory.read, hk, ih (fun c hc => h c (by simp [hc]))]

end Sys2Proof.Machine
end

