-- ==== Sys2Proof/Laws/State.lean ====
section
/-! SUPPORT. One lemma for each field of State under each named update, so that no later proof unfolds a record update. -/

namespace Sys2Proof.Machine

@[simp] theorem State.setA_pc (v : Byte) (s : State) : (s.setA v).pc = s.pc := rfl
@[simp] theorem State.setA_sp (v : Byte) (s : State) : (s.setA v).sp = s.sp := rfl
@[simp] theorem State.setA_a (v : Byte) (s : State) : (s.setA v).a = v := rfl
@[simp] theorem State.setA_x (v : Byte) (s : State) : (s.setA v).x = s.x := rfl
@[simp] theorem State.setA_y (v : Byte) (s : State) : (s.setA v).y = s.y := rfl
@[simp] theorem State.setA_flags (v : Byte) (s : State) : (s.setA v).flags = s.flags := rfl
@[simp] theorem State.setA_mem (v : Byte) (s : State) : (s.setA v).mem = s.mem := rfl
@[simp] theorem State.setA_halted (v : Byte) (s : State) : (s.setA v).halted = s.halted := rfl
@[simp] theorem State.setA_faultAddr (v : Byte) (s : State) : (s.setA v).faultAddr = s.faultAddr := rfl
@[simp] theorem State.setA_faultOp (v : Byte) (s : State) : (s.setA v).faultOp = s.faultOp := rfl
@[simp] theorem State.setA_cycles (v : Byte) (s : State) : (s.setA v).cycles = s.cycles := rfl

@[simp] theorem State.setX_pc (v : Byte) (s : State) : (s.setX v).pc = s.pc := rfl
@[simp] theorem State.setX_sp (v : Byte) (s : State) : (s.setX v).sp = s.sp := rfl
@[simp] theorem State.setX_a (v : Byte) (s : State) : (s.setX v).a = s.a := rfl
@[simp] theorem State.setX_x (v : Byte) (s : State) : (s.setX v).x = v := rfl
@[simp] theorem State.setX_y (v : Byte) (s : State) : (s.setX v).y = s.y := rfl
@[simp] theorem State.setX_flags (v : Byte) (s : State) : (s.setX v).flags = s.flags := rfl
@[simp] theorem State.setX_mem (v : Byte) (s : State) : (s.setX v).mem = s.mem := rfl
@[simp] theorem State.setX_halted (v : Byte) (s : State) : (s.setX v).halted = s.halted := rfl
@[simp] theorem State.setX_faultAddr (v : Byte) (s : State) : (s.setX v).faultAddr = s.faultAddr := rfl
@[simp] theorem State.setX_faultOp (v : Byte) (s : State) : (s.setX v).faultOp = s.faultOp := rfl
@[simp] theorem State.setX_cycles (v : Byte) (s : State) : (s.setX v).cycles = s.cycles := rfl

@[simp] theorem State.setY_pc (v : Byte) (s : State) : (s.setY v).pc = s.pc := rfl
@[simp] theorem State.setY_sp (v : Byte) (s : State) : (s.setY v).sp = s.sp := rfl
@[simp] theorem State.setY_a (v : Byte) (s : State) : (s.setY v).a = s.a := rfl
@[simp] theorem State.setY_x (v : Byte) (s : State) : (s.setY v).x = s.x := rfl
@[simp] theorem State.setY_y (v : Byte) (s : State) : (s.setY v).y = v := rfl
@[simp] theorem State.setY_flags (v : Byte) (s : State) : (s.setY v).flags = s.flags := rfl
@[simp] theorem State.setY_mem (v : Byte) (s : State) : (s.setY v).mem = s.mem := rfl
@[simp] theorem State.setY_halted (v : Byte) (s : State) : (s.setY v).halted = s.halted := rfl
@[simp] theorem State.setY_faultAddr (v : Byte) (s : State) : (s.setY v).faultAddr = s.faultAddr := rfl
@[simp] theorem State.setY_faultOp (v : Byte) (s : State) : (s.setY v).faultOp = s.faultOp := rfl
@[simp] theorem State.setY_cycles (v : Byte) (s : State) : (s.setY v).cycles = s.cycles := rfl

@[simp] theorem State.setSP_pc (v : Byte) (s : State) : (s.setSP v).pc = s.pc := rfl
@[simp] theorem State.setSP_sp (v : Byte) (s : State) : (s.setSP v).sp = v := rfl
@[simp] theorem State.setSP_a (v : Byte) (s : State) : (s.setSP v).a = s.a := rfl
@[simp] theorem State.setSP_x (v : Byte) (s : State) : (s.setSP v).x = s.x := rfl
@[simp] theorem State.setSP_y (v : Byte) (s : State) : (s.setSP v).y = s.y := rfl
@[simp] theorem State.setSP_flags (v : Byte) (s : State) : (s.setSP v).flags = s.flags := rfl
@[simp] theorem State.setSP_mem (v : Byte) (s : State) : (s.setSP v).mem = s.mem := rfl
@[simp] theorem State.setSP_halted (v : Byte) (s : State) : (s.setSP v).halted = s.halted := rfl
@[simp] theorem State.setSP_faultAddr (v : Byte) (s : State) : (s.setSP v).faultAddr = s.faultAddr := rfl
@[simp] theorem State.setSP_faultOp (v : Byte) (s : State) : (s.setSP v).faultOp = s.faultOp := rfl
@[simp] theorem State.setSP_cycles (v : Byte) (s : State) : (s.setSP v).cycles = s.cycles := rfl

@[simp] theorem State.setPC_pc (v : Word) (s : State) : (s.setPC v).pc = v := rfl
@[simp] theorem State.setPC_sp (v : Word) (s : State) : (s.setPC v).sp = s.sp := rfl
@[simp] theorem State.setPC_a (v : Word) (s : State) : (s.setPC v).a = s.a := rfl
@[simp] theorem State.setPC_x (v : Word) (s : State) : (s.setPC v).x = s.x := rfl
@[simp] theorem State.setPC_y (v : Word) (s : State) : (s.setPC v).y = s.y := rfl
@[simp] theorem State.setPC_flags (v : Word) (s : State) : (s.setPC v).flags = s.flags := rfl
@[simp] theorem State.setPC_mem (v : Word) (s : State) : (s.setPC v).mem = s.mem := rfl
@[simp] theorem State.setPC_halted (v : Word) (s : State) : (s.setPC v).halted = s.halted := rfl
@[simp] theorem State.setPC_faultAddr (v : Word) (s : State) : (s.setPC v).faultAddr = s.faultAddr := rfl
@[simp] theorem State.setPC_faultOp (v : Word) (s : State) : (s.setPC v).faultOp = s.faultOp := rfl
@[simp] theorem State.setPC_cycles (v : Word) (s : State) : (s.setPC v).cycles = s.cycles := rfl

@[simp] theorem State.setFlags_pc (f : Flags) (s : State) : (s.setFlags f).pc = s.pc := rfl
@[simp] theorem State.setFlags_sp (f : Flags) (s : State) : (s.setFlags f).sp = s.sp := rfl
@[simp] theorem State.setFlags_a (f : Flags) (s : State) : (s.setFlags f).a = s.a := rfl
@[simp] theorem State.setFlags_x (f : Flags) (s : State) : (s.setFlags f).x = s.x := rfl
@[simp] theorem State.setFlags_y (f : Flags) (s : State) : (s.setFlags f).y = s.y := rfl
@[simp] theorem State.setFlags_flags (f : Flags) (s : State) : (s.setFlags f).flags = f := rfl
@[simp] theorem State.setFlags_mem (f : Flags) (s : State) : (s.setFlags f).mem = s.mem := rfl
@[simp] theorem State.setFlags_halted (f : Flags) (s : State) : (s.setFlags f).halted = s.halted := rfl
@[simp] theorem State.setFlags_faultAddr (f : Flags) (s : State) : (s.setFlags f).faultAddr = s.faultAddr := rfl
@[simp] theorem State.setFlags_faultOp (f : Flags) (s : State) : (s.setFlags f).faultOp = s.faultOp := rfl
@[simp] theorem State.setFlags_cycles (f : Flags) (s : State) : (s.setFlags f).cycles = s.cycles := rfl

@[simp] theorem State.setMem_pc (m : Memory) (s : State) : (s.setMem m).pc = s.pc := rfl
@[simp] theorem State.setMem_sp (m : Memory) (s : State) : (s.setMem m).sp = s.sp := rfl
@[simp] theorem State.setMem_a (m : Memory) (s : State) : (s.setMem m).a = s.a := rfl
@[simp] theorem State.setMem_x (m : Memory) (s : State) : (s.setMem m).x = s.x := rfl
@[simp] theorem State.setMem_y (m : Memory) (s : State) : (s.setMem m).y = s.y := rfl
@[simp] theorem State.setMem_flags (m : Memory) (s : State) : (s.setMem m).flags = s.flags := rfl
@[simp] theorem State.setMem_mem (m : Memory) (s : State) : (s.setMem m).mem = m := rfl
@[simp] theorem State.setMem_halted (m : Memory) (s : State) : (s.setMem m).halted = s.halted := rfl
@[simp] theorem State.setMem_faultAddr (m : Memory) (s : State) : (s.setMem m).faultAddr = s.faultAddr := rfl
@[simp] theorem State.setMem_faultOp (m : Memory) (s : State) : (s.setMem m).faultOp = s.faultOp := rfl
@[simp] theorem State.setMem_cycles (m : Memory) (s : State) : (s.setMem m).cycles = s.cycles := rfl

@[simp] theorem State.charge_pc (n : Nat) (s : State) : (s.charge n).pc = s.pc := rfl
@[simp] theorem State.charge_sp (n : Nat) (s : State) : (s.charge n).sp = s.sp := rfl
@[simp] theorem State.charge_a (n : Nat) (s : State) : (s.charge n).a = s.a := rfl
@[simp] theorem State.charge_x (n : Nat) (s : State) : (s.charge n).x = s.x := rfl
@[simp] theorem State.charge_y (n : Nat) (s : State) : (s.charge n).y = s.y := rfl
@[simp] theorem State.charge_flags (n : Nat) (s : State) : (s.charge n).flags = s.flags := rfl
@[simp] theorem State.charge_mem (n : Nat) (s : State) : (s.charge n).mem = s.mem := rfl
@[simp] theorem State.charge_halted (n : Nat) (s : State) : (s.charge n).halted = s.halted := rfl
@[simp] theorem State.charge_faultAddr (n : Nat) (s : State) : (s.charge n).faultAddr = s.faultAddr := rfl
@[simp] theorem State.charge_faultOp (n : Nat) (s : State) : (s.charge n).faultOp = s.faultOp := rfl
@[simp] theorem State.charge_cycles (n : Nat) (s : State) : (s.charge n).cycles = s.cycles + n := rfl

@[simp] theorem State.dropCount_pc (s : State) : s.dropCount.pc = s.pc := rfl
@[simp] theorem State.dropCount_sp (s : State) : s.dropCount.sp = s.sp := rfl
@[simp] theorem State.dropCount_a (s : State) : s.dropCount.a = s.a := rfl
@[simp] theorem State.dropCount_x (s : State) : s.dropCount.x = s.x := rfl
@[simp] theorem State.dropCount_y (s : State) : s.dropCount.y = s.y := rfl
@[simp] theorem State.dropCount_flags (s : State) : s.dropCount.flags = s.flags := rfl
@[simp] theorem State.dropCount_mem (s : State) : s.dropCount.mem = s.mem := rfl
@[simp] theorem State.dropCount_halted (s : State) : s.dropCount.halted = s.halted := rfl
@[simp] theorem State.dropCount_faultAddr (s : State) : s.dropCount.faultAddr = s.faultAddr := rfl
@[simp] theorem State.dropCount_faultOp (s : State) : s.dropCount.faultOp = s.faultOp := rfl
@[simp] theorem State.dropCount_cycles (s : State) : s.dropCount.cycles = 0 := rfl

@[simp] theorem State.consume_pc (n : Nat) (s : State) : (s.consume n).pc = s.pc + BitVec.ofNat 16 n := rfl
@[simp] theorem State.consume_sp (n : Nat) (s : State) : (s.consume n).sp = s.sp := rfl
@[simp] theorem State.consume_a (n : Nat) (s : State) : (s.consume n).a = s.a := rfl
@[simp] theorem State.consume_x (n : Nat) (s : State) : (s.consume n).x = s.x := rfl
@[simp] theorem State.consume_y (n : Nat) (s : State) : (s.consume n).y = s.y := rfl
@[simp] theorem State.consume_flags (n : Nat) (s : State) : (s.consume n).flags = s.flags := rfl
@[simp] theorem State.consume_mem (n : Nat) (s : State) : (s.consume n).mem = s.mem := rfl
@[simp] theorem State.consume_halted (n : Nat) (s : State) : (s.consume n).halted = s.halted := rfl
@[simp] theorem State.consume_faultAddr (n : Nat) (s : State) : (s.consume n).faultAddr = s.faultAddr := rfl
@[simp] theorem State.consume_faultOp (n : Nat) (s : State) : (s.consume n).faultOp = s.faultOp := rfl
@[simp] theorem State.consume_cycles (n : Nat) (s : State) : (s.consume n).cycles = s.cycles + n := rfl

@[simp] theorem raiseUnrecognizedOpcode_pc (addr : Word) (op : Byte) (s : State) :
    (raiseUnrecognizedOpcode addr op s).pc = s.pc := rfl
@[simp] theorem raiseUnrecognizedOpcode_sp (addr : Word) (op : Byte) (s : State) :
    (raiseUnrecognizedOpcode addr op s).sp = s.sp := rfl
@[simp] theorem raiseUnrecognizedOpcode_a (addr : Word) (op : Byte) (s : State) :
    (raiseUnrecognizedOpcode addr op s).a = s.a := rfl
@[simp] theorem raiseUnrecognizedOpcode_x (addr : Word) (op : Byte) (s : State) :
    (raiseUnrecognizedOpcode addr op s).x = s.x := rfl
@[simp] theorem raiseUnrecognizedOpcode_y (addr : Word) (op : Byte) (s : State) :
    (raiseUnrecognizedOpcode addr op s).y = s.y := rfl
@[simp] theorem raiseUnrecognizedOpcode_flags (addr : Word) (op : Byte) (s : State) :
    (raiseUnrecognizedOpcode addr op s).flags = s.flags := rfl
@[simp] theorem raiseUnrecognizedOpcode_mem (addr : Word) (op : Byte) (s : State) :
    (raiseUnrecognizedOpcode addr op s).mem = s.mem := rfl
@[simp] theorem raiseUnrecognizedOpcode_halted (addr : Word) (op : Byte) (s : State) :
    (raiseUnrecognizedOpcode addr op s).halted = true := rfl
@[simp] theorem raiseUnrecognizedOpcode_faultAddr (addr : Word) (op : Byte) (s : State) :
    (raiseUnrecognizedOpcode addr op s).faultAddr = addr := rfl
@[simp] theorem raiseUnrecognizedOpcode_faultOp (addr : Word) (op : Byte) (s : State) :
    (raiseUnrecognizedOpcode addr op s).faultOp = op := rfl
@[simp] theorem raiseUnrecognizedOpcode_cycles (addr : Word) (op : Byte) (s : State) :
    (raiseUnrecognizedOpcode addr op s).cycles = s.cycles := rfl

/-- States with the same fields are equal. -/
theorem State.eq_of_fields {s t : State} (hpc : s.pc = t.pc) (hsp : s.sp = t.sp) (ha : s.a = t.a) (hx : s.x = t.x)
    (hy : s.y = t.y) (hf : s.flags = t.flags) (hm : s.mem = t.mem) (hh : s.halted = t.halted)
    (hfa : s.faultAddr = t.faultAddr) (hfo : s.faultOp = t.faultOp) (hc : s.cycles = t.cycles) : s = t := by
  cases s; cases t; simp_all

end Sys2Proof.Machine
end

