-- ==== Sys2Proof/Laws/Ops.lean ====
section
/-! SUPPORT. For each shared operation, one lemma that says everything it does, as its answer and one updated state. -/

namespace Sys2Proof.Machine

/-! Reads look only at memory -/

theorem byteAt_congr {s t : State} (h : s.mem = t.mem) (a : Word) : byteAt s a = byteAt t a := by
  simp [byteAt, h]

theorem wordAt_congr {s t : State} (h : s.mem = t.mem) (a : Word) : wordAt s a = wordAt t a := by
  simp [wordAt, byteAt_congr h]

/-- Every byte after a cell is written: the new byte at that address, the old one elsewhere (R31). -/
theorem byteAt_write (s t : State) (a : Word) (v : Byte) (h : t.mem = Memory.write s.mem a.toNat v) (q : Word) :
    byteAt t q = if q = a then v else byteAt s q := by
  simp only [byteAt, h, Memory.read_write]
  by_cases hq : q = a
  · simp [hq]
  · have : q.toNat ≠ a.toNat := fun e => hq (BitVec.eq_of_toNat_eq e)
    simp [hq, this]

/-! Primitives -/

theorem memRead_eq (a : Word) (s : State) : memRead a s = (byteAt s a, { s with cycles := s.cycles + 1 }) := rfl

theorem memWrite_eq (a : Word) (v : Byte) (s : State) :
    memWrite a v s = { s with mem := Memory.write s.mem a.toNat v, cycles := s.cycles + 1 } := rfl

theorem readWord_eq (a : Word) (s : State) : readWord a s = (wordAt s a, { s with cycles := s.cycles + 2 }) := rfl

theorem writeWord_eq (a w : Word) (s : State) :
    writeWord a w s = { s with
      mem := Memory.write (Memory.write s.mem a.toNat (loByte w)) (a + 1).toNat (hiByte w)
      cycles := s.cycles + 2 } := rfl

theorem fetchByte_eq (s : State) :
    fetchByte s = (byteAt s s.pc, { s with pc := s.pc + 1, cycles := s.cycles + 1 }) := rfl

theorem fetchWord_eq (s : State) :
    fetchWord s = (wordAt s s.pc, { s with pc := s.pc + 1 + 1, cycles := s.cycles + 2 }) := rfl

theorem consume_eq (n : Nat) (s : State) :
    s.consume n = { s with pc := s.pc + BitVec.ofNat 16 n, cycles := s.cycles + n } := rfl

/-- `consume` is what that many `FetchByte` calls do to the state. -/
theorem fetchByte_state (s : State) : (fetchByte s).2 = s.consume 1 := rfl

/-! Stack -/

theorem pushByte_eq (v : Byte) (s : State) :
    pushByte v s = { s with
      mem := Memory.write s.mem (stackAddress s.sp).toNat v
      sp := s.sp - 1
      cycles := s.cycles + 1 } := rfl

theorem popByte_eq (s : State) :
    popByte s = (byteAt s (stackAddress (s.sp + 1)), { s with sp := s.sp + 1, cycles := s.cycles + 1 }) := rfl

theorem pushWord_eq (w : Word) (s : State) :
    pushWord w s = { s with
      mem := Memory.write (Memory.write s.mem (stackAddress s.sp).toNat (hiByte w)) (stackAddress (s.sp - 1)).toNat (loByte w)
      sp := s.sp - 1 - 1
      cycles := s.cycles + 2 } := rfl

theorem popWord_eq (s : State) :
    popWord s = (joinBytes (byteAt s (stackAddress (s.sp + 1 + 1))) (byteAt s (stackAddress (s.sp + 1))),
      { s with sp := s.sp + 1 + 1, cycles := s.cycles + 2 }) := rfl

theorem toNat_stackAddress (sp : Byte) : (stackAddress sp).toNat = 256 + sp.toNat := by
  have := sp.isLt
  have e : (0x0100 : Word).toNat = 256 := rfl
  simp only [stackAddress, BitVec.toNat_add, toNat_zext16, e]
  omega

theorem stackAddress_inj {a b : Byte} : stackAddress a = stackAddress b ↔ a = b := by
  refine ⟨fun h => BitVec.eq_of_toNat_eq ?_, fun h => by rw [h]⟩
  have := congrArg BitVec.toNat h
  rw [toNat_stackAddress, toNat_stackAddress] at this
  omega

/-! Operands -/

/-- An effective address depends on `X`, `Y` and memory alone. -/
theorem effectiveAddress_congr {s t : State} (m : AddrMode) (hx : s.x = t.x) (hy : s.y = t.y) (hm : s.mem = t.mem) :
    effectiveAddress m s = effectiveAddress m t := by
  cases m <;> simp [effectiveAddress, wordAt_congr hm, hx, hy]

theorem pageCrossed_congr {s t : State} (m : AddrMode) (hx : s.x = t.x) (hy : s.y = t.y) (hm : s.mem = t.mem) :
    pageCrossed m s = pageCrossed m t := by
  cases m <;> simp [pageCrossed, wordAt_congr hm, hx, hy]

theorem operandValue_congr {s t : State} (o : Operand) (hx : s.x = t.x) (hy : s.y = t.y) (hm : s.mem = t.mem) :
    operandValue o s = operandValue o t := by
  cases o with
  | immediate v => rfl
  | memory m => simp only [operandValue, effectiveAddress_congr m hx hy hm, byteAt_congr hm]

/-- Bytes of a reading instruction's operand. -/
def operandSize (o : Operand) : Nat :=
  match o with
  | .immediate _ => 1
  | .memory m => operandLength m

/-- Cycles of a reading instruction's operand: its fetch, the pointer reads, the page-cross cycle, the data read. -/
def operandCycles (o : Operand) (s : State) : Nat :=
  match o with
  | .immediate _ => 1
  | .memory m => operandLength m + pointerCycles m + (pageCrossed m s).toNat + 1

theorem afterOpcode_eq (s : State) : afterOpcode s = { s with pc := s.pc + 1, cycles := s.cycles + 1 } := rfl

theorem afterResolve_eq (m : AddrMode) (s : State) :
    afterResolve m s = { s with
      pc := s.pc + BitVec.ofNat 16 (operandLength m)
      cycles := s.cycles + operandLength m + pointerCycles m } := rfl

/-- Reading an operand moves `PC` past it, charges its cycles and does nothing else. -/
theorem readOperand_eq (o : Operand) (s : State) :
    readOperand o s = (operandValue o s, { s with
      pc := s.pc + BitVec.ofNat 16 (operandSize o)
      cycles := s.cycles + operandCycles o s }) := by
  cases o with
  | immediate v => rfl
  | memory m =>
    simp only [readOperand, afterOperand, operandSize, operandCycles, memRead, afterResolve, State.charge, State.consume,
      State.setPC, operandValue, Prod.mk.injEq, true_and]
    simp only [Nat.add_assoc]

/-- Storing to an operand writes one cell, moves `PC` past the operand and charges its cycles. -/
theorem storeOperand_eq (m : AddrMode) (v : Byte) (s : State) :
    storeOperand m v s = { s with
      mem := Memory.write s.mem (effectiveAddress m s).toNat v
      pc := s.pc + BitVec.ofNat 16 (operandLength m)
      cycles := s.cycles + operandLength m + pointerCycles m + flatIndexCycles m + 1 } := rfl

/-- Modifying an operand answers `f` of the byte there and writes that to its cell. -/
theorem modifyOperand_eq (m : AddrMode) (f : Byte → Byte) (s : State) :
    modifyOperand m f s = (f (byteAt s (effectiveAddress m s)), { s with
      mem := Memory.write s.mem (effectiveAddress m s).toNat (f (byteAt s (effectiveAddress m s)))
      pc := s.pc + BitVec.ofNat 16 (operandLength m)
      cycles := s.cycles + operandLength m + pointerCycles m + flatIndexCycles m + 1 + 1 + 1 }) := rfl

end Sys2Proof.Machine
end

