-- ==== Sys2Proof/Laws/Exec.lean ====
section
/-! SUPPORT. What each shared operation of the instruction families does, as one updated state. -/

namespace Sys2Proof.Machine

theorem operandValue_afterOpcode (o : Operand) (s : State) : operandValue o (afterOpcode s) = operandValue o s :=
  operandValue_congr o rfl rfl rfl

theorem effectiveAddress_afterOpcode (m : AddrMode) (s : State) :
    effectiveAddress m (afterOpcode s) = effectiveAddress m s :=
  effectiveAddress_congr m rfl rfl rfl

theorem operandCycles_afterOpcode (o : Operand) (s : State) : operandCycles o (afterOpcode s) = operandCycles o s := by
  cases o with
  | immediate v => rfl
  | memory m => simp only [operandCycles, pageCrossed_congr (s := afterOpcode s) (t := s) m rfl rfl rfl]

/-- A reading instruction after its opcode and its operand are fetched. -/
theorem readOperand_afterOpcode (o : Operand) (s : State) :
    readOperand o (afterOpcode s) = (operandValue o s, { s with
      pc := s.pc + 1 + BitVec.ofNat 16 (operandSize o)
      cycles := s.cycles + 1 + operandCycles o s }) := by
  rw [readOperand_eq, operandValue_afterOpcode, operandCycles_afterOpcode, afterOpcode_eq]

/-! Reading instructions -/

theorem lda_eq (o : Operand) (s : State) :
    lda o s = { s with
      a := operandValue o s, flags := setZN (operandValue o s) s.flags
      pc := s.pc + 1 + BitVec.ofNat 16 (operandSize o), cycles := s.cycles + 1 + operandCycles o s } := by
  simp [lda, readOperand_afterOpcode, State.setA, State.setFlags]

theorem ldx_eq (o : Operand) (s : State) :
    ldx o s = { s with
      x := operandValue o s, flags := setZN (operandValue o s) s.flags
      pc := s.pc + 1 + BitVec.ofNat 16 (operandSize o), cycles := s.cycles + 1 + operandCycles o s } := by
  simp [ldx, readOperand_afterOpcode, State.setX, State.setFlags]

theorem ldy_eq (o : Operand) (s : State) :
    ldy o s = { s with
      y := operandValue o s, flags := setZN (operandValue o s) s.flags
      pc := s.pc + 1 + BitVec.ofNat 16 (operandSize o), cycles := s.cycles + 1 + operandCycles o s } := by
  simp [ldy, readOperand_afterOpcode, State.setY, State.setFlags]

theorem logical_eq (f : Byte → Byte → Byte) (o : Operand) (s : State) :
    logical f o s = { s with
      a := f s.a (operandValue o s), flags := setZN (f s.a (operandValue o s)) s.flags
      pc := s.pc + 1 + BitVec.ofNat 16 (operandSize o), cycles := s.cycles + 1 + operandCycles o s } := by
  simp [logical, readOperand_afterOpcode, State.setA, State.setFlags]

theorem bitTest_eq (m : AddrMode) (s : State) :
    bitTest m s = { s with
      flags := bitFlags s.a (operandValue (.memory m) s) s.flags
      pc := s.pc + 1 + BitVec.ofNat 16 (operandSize (.memory m))
      cycles := s.cycles + 1 + operandCycles (.memory m) s } := by
  simp [bitTest, readOperand_afterOpcode, State.setFlags]

theorem adc_eq (o : Operand) (s : State) :
    adc o s = { s with
      a := addResult s.a (operandValue o s) s.flags.c, flags := addFlags s.a (operandValue o s) s.flags
      pc := s.pc + 1 + BitVec.ofNat 16 (operandSize o), cycles := s.cycles + 1 + operandCycles o s } := by
  simp [adc, readOperand_afterOpcode, State.setA, State.setFlags]

theorem sbc_eq (o : Operand) (s : State) :
    sbc o s = { s with
      a := addResult s.a (onesComplement (operandValue o s)) s.flags.c
      flags := addFlags s.a (onesComplement (operandValue o s)) s.flags
      pc := s.pc + 1 + BitVec.ofNat 16 (operandSize o), cycles := s.cycles + 1 + operandCycles o s } := by
  simp [sbc, readOperand_afterOpcode, State.setA, State.setFlags]

theorem cmp_eq (o : Operand) (s : State) :
    cmp o s = { s with
      flags := compareFlags s.a (operandValue o s) s.flags
      pc := s.pc + 1 + BitVec.ofNat 16 (operandSize o), cycles := s.cycles + 1 + operandCycles o s } := by
  simp [cmp, readOperand_afterOpcode, State.setFlags]

theorem cpx_eq (o : Operand) (s : State) :
    cpx o s = { s with
      flags := compareFlags s.x (operandValue o s) s.flags
      pc := s.pc + 1 + BitVec.ofNat 16 (operandSize o), cycles := s.cycles + 1 + operandCycles o s } := by
  simp [cpx, readOperand_afterOpcode, State.setFlags]

theorem cpy_eq (o : Operand) (s : State) :
    cpy o s = { s with
      flags := compareFlags s.y (operandValue o s) s.flags
      pc := s.pc + 1 + BitVec.ofNat 16 (operandSize o), cycles := s.cycles + 1 + operandCycles o s } := by
  simp [cpy, readOperand_afterOpcode, State.setFlags]

/-! Writing and read-modify-write instructions -/

theorem storeOperand_afterOpcode (m : AddrMode) (v : Byte) (s : State) :
    storeOperand m v (afterOpcode s) = { s with
      mem := Memory.write s.mem (effectiveAddress m s).toNat v
      pc := s.pc + 1 + BitVec.ofNat 16 (operandLength m)
      cycles := s.cycles + 1 + operandLength m + pointerCycles m + flatIndexCycles m + 1 } := by
  rw [storeOperand_eq, effectiveAddress_afterOpcode, afterOpcode_eq]

theorem modifyMemory_eq (f : Byte → Byte) (m : AddrMode) (s : State) :
    modifyMemory f m s = { s with
      mem := Memory.write s.mem (effectiveAddress m s).toNat (f (byteAt s (effectiveAddress m s)))
      flags := setZN (f (byteAt s (effectiveAddress m s))) s.flags
      pc := s.pc + 1 + BitVec.ofNat 16 (operandLength m)
      cycles := s.cycles + 1 + operandLength m + pointerCycles m + flatIndexCycles m + 1 + 1 + 1 } := by
  simp only [modifyMemory, modifyOperand_eq, effectiveAddress_afterOpcode]
  rfl

/-! Implied instructions, stack, jumps, branches -/

theorem afterImplied_eq (s : State) : afterImplied s = { s with pc := s.pc + 1, cycles := s.cycles + 2 } := rfl

theorem transferXToSP_eq (setsZN : Bool) (s : State) :
    transferXToSP setsZN s = { s with
      sp := s.x, flags := if setsZN then setZN s.x s.flags else s.flags, pc := s.pc + 1, cycles := s.cycles + 2 } := rfl

theorem pushA_eq (s : State) :
    pushA s = { s with
      mem := Memory.write s.mem (stackAddress s.sp).toNat s.a, sp := s.sp - 1, pc := s.pc + 1, cycles := s.cycles + 3 } := rfl

theorem pushStatus_eq (forced : Byte) (s : State) :
    pushStatus forced s = { s with
      mem := Memory.write s.mem (stackAddress s.sp).toNat (packP s.flags ||| forced)
      sp := s.sp - 1, pc := s.pc + 1, cycles := s.cycles + 3 } := rfl

theorem pullA_eq (s : State) :
    pullA s = { s with
      a := byteAt s (stackAddress (s.sp + 1)), flags := setZN (byteAt s (stackAddress (s.sp + 1))) s.flags
      sp := s.sp + 1, pc := s.pc + 1, cycles := s.cycles + 4 } := rfl

theorem pullStatus_eq (loadBU : Bool) (s : State) :
    pullStatus loadBU s = { s with
      flags := unpackP loadBU (byteAt s (stackAddress (s.sp + 1))) s.flags
      sp := s.sp + 1, pc := s.pc + 1, cycles := s.cycles + 4 } := rfl

theorem jumpTo_eq (w : Word) (s : State) : jumpTo w s = { s with pc := w, cycles := s.cycles + 3 } := rfl

theorem jumpThrough_eq (w : Word) (s : State) :
    jumpThrough w s = { s with pc := wordAt s w, cycles := s.cycles + 5 } := rfl

theorem callTo_eq (w : Word) (s : State) :
    callTo w s = { s with
      mem := Memory.write (Memory.write s.mem (stackAddress s.sp).toNat (hiByte (s.pc + 1 + 2 - 1)))
        (stackAddress (s.sp - 1)).toNat (loByte (s.pc + 1 + 2 - 1))
      sp := s.sp - 1 - 1, pc := w, cycles := s.cycles + 6 } := rfl

theorem returnFromCall_eq (s : State) :
    returnFromCall s = { s with
      pc := joinBytes (byteAt s (stackAddress (s.sp + 1 + 1))) (byteAt s (stackAddress (s.sp + 1))) + 1
      sp := s.sp + 1 + 1, cycles := s.cycles + 6 } := rfl

theorem branchIf_false (off : Byte) (s : State) :
    branchIf false off s = { s with pc := s.pc + 1 + 1, cycles := s.cycles + 2 } := rfl

theorem branchIf_true (off : Byte) (s : State) :
    branchIf true off s = { s with
      pc := branchTarget (s.pc + 1 + 1) off
      cycles := s.cycles + 1 + 1 + (1 + (pagesDiffer (branchTarget (s.pc + 1 + 1) off) (s.pc + 1 + 1)).toNat) } := rfl

/-! The step -/

/-- Everything a step can do: report a halted core's fault, run the instruction at `PC`, or take the exception. -/
theorem step_cases (s : State) :
    (s.halted = true ∧ step s = haltedOutcome s) ∨
    (s.halted = false ∧ ∃ i, fetchInstr s = some i ∧ step s = exec i s) ∨
    (s.halted = false ∧ fetchInstr s = none ∧ step s = .next (decodeFault s)) := by
  unfold step
  cases hh : s.halted
  · cases hf : fetchInstr s <;> simp
  · simp

theorem decodeFault_eq (s : State) :
    decodeFault s = { s with
      pc := s.pc + 1, cycles := s.cycles + 1, halted := true, faultAddr := s.pc, faultOp := byteAt s s.pc } := rfl

end Sys2Proof.Machine
end

