-- ==== Sys2Proof/Laws/Flags.lean ====
section
/-! SUPPORT. What each flag computation and the branch target are, as arithmetic on naturals and integers. -/

namespace Sys2Proof.Machine

theorem setZN_eq_flagsZN (v : Byte) (f : Flags) : setZN v f = flagsZN v f := by
  simp [setZN, flagsZN, BitVec.msb_eq_getLsbD_last, BEq.beq]

/-! The adder of R170 -/

theorem toNat_addSum (a m : Byte) (carry : Bool) : (addSum a m carry).toNat = a.toNat + m.toNat + carry.toNat := by
  have := a.isLt
  have := m.isLt
  cases carry <;> simp [addSum] <;> omega

theorem toNat_addResult (a m : Byte) (carry : Bool) :
    (addResult a m carry).toNat = (a.toNat + m.toNat + carry.toNat) % 256 := by
  simp [addResult, toNat_addSum]

theorem addCarry_eq (a m : Byte) (carry : Bool) :
    addCarry a m carry = decide (255 < a.toNat + m.toNat + carry.toNat) := by
  have := a.isLt
  have := m.isLt
  have : carry.toNat ≤ 1 := by cases carry <;> simp
  rw [addCarry, BitVec.getLsbD, toNat_addSum, Nat.testBit_eq_decide_div_mod_eq]
  congr 1
  apply propext
  constructor <;> intro h <;> omega

theorem onesComplement_eq_not (m : Byte) : onesComplement m = ~~~m := BitVec.xor_allOnes (x := m)

theorem toNat_onesComplement (m : Byte) : (onesComplement m).toNat = 255 - m.toNat := by
  simp [onesComplement_eq_not, BitVec.toNat_not]

theorem msb_onesComplement (m : Byte) : (onesComplement m).msb = !m.msb := by simp [onesComplement_eq_not]

/-! The status byte of R16 -/

theorem packP_bits (f : Flags) :
    (packP f).getLsbD 0 = f.c ∧ (packP f).getLsbD 1 = f.z ∧ (packP f).getLsbD 2 = f.i ∧ (packP f).getLsbD 3 = f.d ∧
    (packP f).getLsbD 4 = f.b ∧ (packP f).getLsbD 5 = f.u ∧ (packP f).getLsbD 6 = f.v ∧ (packP f).getLsbD 7 = f.n := by
  obtain ⟨c, z, i, d, b, u, v, n⟩ := f
  revert c z i d b u v n
  decide

/-- Loading all eight flags from a status byte gives back the flags it was packed from. -/
theorem unpackP_packP (f g : Flags) : unpackP true (packP f) g = f := by
  obtain ⟨hc, hz, hi, hd, hb, hu, hv, hn⟩ := packP_bits f
  simp only [unpackP, hc, hz, hi, hd, hb, hu, hv, hn, if_true]

/-! The branch target of R61 -/

theorem signed8_eq_toInt (v : Byte) : signed8 v = v.toInt := by
  rw [BitVec.toInt_eq_toNat_cond]
  unfold signed8
  split <;> split <;> omega

theorem toNat_branchTarget (next : Word) (off : Byte) :
    ((branchTarget next off).toNat : Int) = (next.toNat + signed8 off) % 65536 := by
  have e : (BitVec.signExtend 16 off).toNat = (signed8 off % 65536).toNat := by
    rw [BitVec.signExtend, ← signed8_eq_toInt, BitVec.toNat_ofInt]
    rfl
  have := next.isLt
  have := off.isLt
  rw [branchTarget, sext16, BitVec.toNat_add, e]
  unfold signed8
  split <;> omega

end Sys2Proof.Machine
end

