-- ==== Sys2Proof/Laws/Forms.lean ====
section
/-! SUPPORT. The spec's form tables against the encoder and the operand sizes: bytes, next address and cycle total of a form. -/

namespace Sys2Proof.Machine

theorem readForm_encode {i : Instr} {opc : Byte} {o : Operand} (h : readForm i = some (opc, o)) :
    encode i = opc :: operandBytes o := by
  cases i <;> simp [readForm] at h <;> obtain ⟨rfl, rfl⟩ := h <;> rfl

theorem storeForm_encode {i : Instr} {opc : Byte} {m : AddrMode} (h : storeForm i = some (opc, m)) :
    encode i = opc :: modeBytes m := by
  cases i <;> simp [storeForm] at h <;> obtain ⟨rfl, rfl⟩ := h <;> rfl

theorem modifyForm_encode {i : Instr} {opc : Byte} {m : AddrMode} (h : modifyForm i = some (opc, m)) :
    encode i = opc :: modeBytes m := by
  cases i <;> simp [modifyForm] at h <;> obtain ⟨rfl, rfl⟩ := h <;> rfl

theorem length_modeBytes (m : AddrMode) : (modeBytes m).length = operandLength m := by cases m <;> rfl

theorem length_operandBytes (o : Operand) : (operandBytes o).length = operandSize o := by
  cases o with
  | immediate v => rfl
  | memory m => exact length_modeBytes m

/-- The next address from an encoding of one opcode byte and `operand`. -/
theorem nextPC_of_encode {i : Instr} {opc : Byte} {operand : List Byte} (s : State) (h : encode i = opc :: operand) :
    nextPC i s = s.pc + 1 + BitVec.ofNat 16 operand.length := by
  rw [nextPC, instrLength, h, List.length_cons, BitVec.add_assoc, Nat.add_comm, BitVec.ofNat_add]
  rfl

/-- The published total of a reading instruction is the sum its accesses charge (R240). -/
theorem readCycles_eq (o : Operand) (s : State) : readCycles o s = 1 + operandCycles o s := by
  cases o with
  | immediate v => rfl
  | memory m => cases m <;> simp [operandCycles, readCycles, operandLength, pointerCycles, pageCrossed] <;> omega

/-- The same for a writing instruction. -/
theorem storeCycles_eq (m : AddrMode) :
    storeCycles m = 1 + operandLength m + pointerCycles m + flatIndexCycles m + 1 := by cases m <;> rfl

end Sys2Proof.Machine
end

