-- ==== Sys2Proof/Laws/PerInstr.lean ====
section
/-! SUPPORT. The per-instruction family EncodingLength: an instruction is well formed and has one to three bytes (R50). -/

namespace Sys2Proof.Laws.EncodingLength

def Statement (i : Instr) : Prop := i.WellFormed ∧ 1 ≤ instrLength i ∧ instrLength i ≤ 3

/-- How a length that evaluates to a numeral meets the bounds. -/
theorem of_length {i : Instr} {n : Nat} (h : instrLength i = n) (h1 : 1 ≤ n) (h3 : n ≤ 3) : Statement i :=
  ⟨trivial, h ▸ h1, h ▸ h3⟩

theorem ldaImm (v : Byte) : Statement (.ldaImm v) := of_length (n := 2) rfl (by decide) (by decide)
theorem ldaZp (b : Byte) : Statement (.ldaZp b) := of_length (n := 2) rfl (by decide) (by decide)
theorem ldaZpX (b : Byte) : Statement (.ldaZpX b) := of_length (n := 2) rfl (by decide) (by decide)
theorem ldaAbs (w : Word) : Statement (.ldaAbs w) := of_length (n := 3) rfl (by decide) (by decide)
theorem ldaAbsX (w : Word) : Statement (.ldaAbsX w) := of_length (n := 3) rfl (by decide) (by decide)
theorem ldaAbsY (w : Word) : Statement (.ldaAbsY w) := of_length (n := 3) rfl (by decide) (by decide)
theorem ldaIndX (b : Byte) : Statement (.ldaIndX b) := of_length (n := 2) rfl (by decide) (by decide)
theorem ldaIndY (b : Byte) : Statement (.ldaIndY b) := of_length (n := 2) rfl (by decide) (by decide)
theorem ldxImm (v : Byte) : Statement (.ldxImm v) := of_length (n := 2) rfl (by decide) (by decide)
theorem ldxZp (b : Byte) : Statement (.ldxZp b) := of_length (n := 2) rfl (by decide) (by decide)
theorem ldxZpY (b : Byte) : Statement (.ldxZpY b) := of_length (n := 2) rfl (by decide) (by decide)
theorem ldxAbs (w : Word) : Statement (.ldxAbs w) := of_length (n := 3) rfl (by decide) (by decide)
theorem ldxAbsY (w : Word) : Statement (.ldxAbsY w) := of_length (n := 3) rfl (by decide) (by decide)
theorem ldyImm (v : Byte) : Statement (.ldyImm v) := of_length (n := 2) rfl (by decide) (by decide)
theorem ldyZp (b : Byte) : Statement (.ldyZp b) := of_length (n := 2) rfl (by decide) (by decide)
theorem ldyZpX (b : Byte) : Statement (.ldyZpX b) := of_length (n := 2) rfl (by decide) (by decide)
theorem ldyAbs (w : Word) : Statement (.ldyAbs w) := of_length (n := 3) rfl (by decide) (by decide)
theorem ldyAbsX (w : Word) : Statement (.ldyAbsX w) := of_length (n := 3) rfl (by decide) (by decide)
theorem staZp (b : Byte) : Statement (.staZp b) := of_length (n := 2) rfl (by decide) (by decide)
theorem staZpX (b : Byte) : Statement (.staZpX b) := of_length (n := 2) rfl (by decide) (by decide)
theorem staAbs (w : Word) : Statement (.staAbs w) := of_length (n := 3) rfl (by decide) (by decide)
theorem staAbsX (w : Word) : Statement (.staAbsX w) := of_length (n := 3) rfl (by decide) (by decide)
theorem staAbsY (w : Word) : Statement (.staAbsY w) := of_length (n := 3) rfl (by decide) (by decide)
theorem staIndX (b : Byte) : Statement (.staIndX b) := of_length (n := 2) rfl (by decide) (by decide)
theorem staIndY (b : Byte) : Statement (.staIndY b) := of_length (n := 2) rfl (by decide) (by decide)
theorem stxZp (b : Byte) : Statement (.stxZp b) := of_length (n := 2) rfl (by decide) (by decide)
theorem stxZpY (b : Byte) : Statement (.stxZpY b) := of_length (n := 2) rfl (by decide) (by decide)
theorem stxAbs (w : Word) : Statement (.stxAbs w) := of_length (n := 3) rfl (by decide) (by decide)
theorem styZp (b : Byte) : Statement (.styZp b) := of_length (n := 2) rfl (by decide) (by decide)
theorem styZpX (b : Byte) : Statement (.styZpX b) := of_length (n := 2) rfl (by decide) (by decide)
theorem styAbs (w : Word) : Statement (.styAbs w) := of_length (n := 3) rfl (by decide) (by decide)
theorem tax : Statement .tax := of_length (n := 1) rfl (by decide) (by decide)
theorem tay : Statement .tay := of_length (n := 1) rfl (by decide) (by decide)
theorem txa : Statement .txa := of_length (n := 1) rfl (by decide) (by decide)
theorem tya : Statement .tya := of_length (n := 1) rfl (by decide) (by decide)
theorem tsx : Statement .tsx := of_length (n := 1) rfl (by decide) (by decide)
theorem txs : Statement .txs := of_length (n := 1) rfl (by decide) (by decide)
theorem pha : Statement .pha := of_length (n := 1) rfl (by decide) (by decide)
theorem php : Statement .php := of_length (n := 1) rfl (by decide) (by decide)
theorem pla : Statement .pla := of_length (n := 1) rfl (by decide) (by decide)
theorem plp : Statement .plp := of_length (n := 1) rfl (by decide) (by decide)
theorem andImm (v : Byte) : Statement (.andImm v) := of_length (n := 2) rfl (by decide) (by decide)
theorem andZp (b : Byte) : Statement (.andZp b) := of_length (n := 2) rfl (by decide) (by decide)
theorem andZpX (b : Byte) : Statement (.andZpX b) := of_length (n := 2) rfl (by decide) (by decide)
theorem andAbs (w : Word) : Statement (.andAbs w) := of_length (n := 3) rfl (by decide) (by decide)
theorem andAbsX (w : Word) : Statement (.andAbsX w) := of_length (n := 3) rfl (by decide) (by decide)
theorem andAbsY (w : Word) : Statement (.andAbsY w) := of_length (n := 3) rfl (by decide) (by decide)
theorem andIndX (b : Byte) : Statement (.andIndX b) := of_length (n := 2) rfl (by decide) (by decide)
theorem andIndY (b : Byte) : Statement (.andIndY b) := of_length (n := 2) rfl (by decide) (by decide)
theorem oraImm (v : Byte) : Statement (.oraImm v) := of_length (n := 2) rfl (by decide) (by decide)
theorem oraZp (b : Byte) : Statement (.oraZp b) := of_length (n := 2) rfl (by decide) (by decide)
theorem oraZpX (b : Byte) : Statement (.oraZpX b) := of_length (n := 2) rfl (by decide) (by decide)
theorem oraAbs (w : Word) : Statement (.oraAbs w) := of_length (n := 3) rfl (by decide) (by decide)
theorem oraAbsX (w : Word) : Statement (.oraAbsX w) := of_length (n := 3) rfl (by decide) (by decide)
theorem oraAbsY (w : Word) : Statement (.oraAbsY w) := of_length (n := 3) rfl (by decide) (by decide)
theorem oraIndX (b : Byte) : Statement (.oraIndX b) := of_length (n := 2) rfl (by decide) (by decide)
theorem oraIndY (b : Byte) : Statement (.oraIndY b) := of_length (n := 2) rfl (by decide) (by decide)
theorem eorImm (v : Byte) : Statement (.eorImm v) := of_length (n := 2) rfl (by decide) (by decide)
theorem eorZp (b : Byte) : Statement (.eorZp b) := of_length (n := 2) rfl (by decide) (by decide)
theorem eorZpX (b : Byte) : Statement (.eorZpX b) := of_length (n := 2) rfl (by decide) (by decide)
theorem eorAbs (w : Word) : Statement (.eorAbs w) := of_length (n := 3) rfl (by decide) (by decide)
theorem eorAbsX (w : Word) : Statement (.eorAbsX w) := of_length (n := 3) rfl (by decide) (by decide)
theorem eorAbsY (w : Word) : Statement (.eorAbsY w) := of_length (n := 3) rfl (by decide) (by decide)
theorem eorIndX (b : Byte) : Statement (.eorIndX b) := of_length (n := 2) rfl (by decide) (by decide)
theorem eorIndY (b : Byte) : Statement (.eorIndY b) := of_length (n := 2) rfl (by decide) (by decide)
theorem bitZp (b : Byte) : Statement (.bitZp b) := of_length (n := 2) rfl (by decide) (by decide)
theorem bitAbs (w : Word) : Statement (.bitAbs w) := of_length (n := 3) rfl (by decide) (by decide)
theorem incZp (b : Byte) : Statement (.incZp b) := of_length (n := 2) rfl (by decide) (by decide)
theorem incZpX (b : Byte) : Statement (.incZpX b) := of_length (n := 2) rfl (by decide) (by decide)
theorem incAbs (w : Word) : Statement (.incAbs w) := of_length (n := 3) rfl (by decide) (by decide)
theorem incAbsX (w : Word) : Statement (.incAbsX w) := of_length (n := 3) rfl (by decide) (by decide)
theorem decZp (b : Byte) : Statement (.decZp b) := of_length (n := 2) rfl (by decide) (by decide)
theorem decZpX (b : Byte) : Statement (.decZpX b) := of_length (n := 2) rfl (by decide) (by decide)
theorem decAbs (w : Word) : Statement (.decAbs w) := of_length (n := 3) rfl (by decide) (by decide)
theorem decAbsX (w : Word) : Statement (.decAbsX w) := of_length (n := 3) rfl (by decide) (by decide)
theorem inx : Statement .inx := of_length (n := 1) rfl (by decide) (by decide)
theorem iny : Statement .iny := of_length (n := 1) rfl (by decide) (by decide)
theorem dex : Statement .dex := of_length (n := 1) rfl (by decide) (by decide)
theorem dey : Statement .dey := of_length (n := 1) rfl (by decide) (by decide)
theorem jmpAbs (w : Word) : Statement (.jmpAbs w) := of_length (n := 3) rfl (by decide) (by decide)
theorem jmpInd (w : Word) : Statement (.jmpInd w) := of_length (n := 3) rfl (by decide) (by decide)
theorem jsr (w : Word) : Statement (.jsr w) := of_length (n := 3) rfl (by decide) (by decide)
theorem rts : Statement .rts := of_length (n := 1) rfl (by decide) (by decide)
theorem beq (off : Byte) : Statement (.beq off) := of_length (n := 2) rfl (by decide) (by decide)
theorem bne (off : Byte) : Statement (.bne off) := of_length (n := 2) rfl (by decide) (by decide)
theorem bcs (off : Byte) : Statement (.bcs off) := of_length (n := 2) rfl (by decide) (by decide)
theorem bcc (off : Byte) : Statement (.bcc off) := of_length (n := 2) rfl (by decide) (by decide)
theorem bmi (off : Byte) : Statement (.bmi off) := of_length (n := 2) rfl (by decide) (by decide)
theorem bpl (off : Byte) : Statement (.bpl off) := of_length (n := 2) rfl (by decide) (by decide)
theorem bvs (off : Byte) : Statement (.bvs off) := of_length (n := 2) rfl (by decide) (by decide)
theorem bvc (off : Byte) : Statement (.bvc off) := of_length (n := 2) rfl (by decide) (by decide)
theorem adcImm (v : Byte) : Statement (.adcImm v) := of_length (n := 2) rfl (by decide) (by decide)
theorem adcZp (b : Byte) : Statement (.adcZp b) := of_length (n := 2) rfl (by decide) (by decide)
theorem adcZpX (b : Byte) : Statement (.adcZpX b) := of_length (n := 2) rfl (by decide) (by decide)
theorem adcAbs (w : Word) : Statement (.adcAbs w) := of_length (n := 3) rfl (by decide) (by decide)
theorem adcAbsX (w : Word) : Statement (.adcAbsX w) := of_length (n := 3) rfl (by decide) (by decide)
theorem adcAbsY (w : Word) : Statement (.adcAbsY w) := of_length (n := 3) rfl (by decide) (by decide)
theorem adcIndX (b : Byte) : Statement (.adcIndX b) := of_length (n := 2) rfl (by decide) (by decide)
theorem adcIndY (b : Byte) : Statement (.adcIndY b) := of_length (n := 2) rfl (by decide) (by decide)
theorem sbcImm (v : Byte) : Statement (.sbcImm v) := of_length (n := 2) rfl (by decide) (by decide)
theorem sbcZp (b : Byte) : Statement (.sbcZp b) := of_length (n := 2) rfl (by decide) (by decide)
theorem sbcZpX (b : Byte) : Statement (.sbcZpX b) := of_length (n := 2) rfl (by decide) (by decide)
theorem sbcAbs (w : Word) : Statement (.sbcAbs w) := of_length (n := 3) rfl (by decide) (by decide)
theorem sbcAbsX (w : Word) : Statement (.sbcAbsX w) := of_length (n := 3) rfl (by decide) (by decide)
theorem sbcAbsY (w : Word) : Statement (.sbcAbsY w) := of_length (n := 3) rfl (by decide) (by decide)
theorem sbcIndX (b : Byte) : Statement (.sbcIndX b) := of_length (n := 2) rfl (by decide) (by decide)
theorem sbcIndY (b : Byte) : Statement (.sbcIndY b) := of_length (n := 2) rfl (by decide) (by decide)
theorem cmpImm (v : Byte) : Statement (.cmpImm v) := of_length (n := 2) rfl (by decide) (by decide)
theorem cmpZp (b : Byte) : Statement (.cmpZp b) := of_length (n := 2) rfl (by decide) (by decide)
theorem cmpZpX (b : Byte) : Statement (.cmpZpX b) := of_length (n := 2) rfl (by decide) (by decide)
theorem cmpAbs (w : Word) : Statement (.cmpAbs w) := of_length (n := 3) rfl (by decide) (by decide)
theorem cmpAbsX (w : Word) : Statement (.cmpAbsX w) := of_length (n := 3) rfl (by decide) (by decide)
theorem cmpAbsY (w : Word) : Statement (.cmpAbsY w) := of_length (n := 3) rfl (by decide) (by decide)
theorem cmpIndX (b : Byte) : Statement (.cmpIndX b) := of_length (n := 2) rfl (by decide) (by decide)
theorem cmpIndY (b : Byte) : Statement (.cmpIndY b) := of_length (n := 2) rfl (by decide) (by decide)
theorem cpxImm (v : Byte) : Statement (.cpxImm v) := of_length (n := 2) rfl (by decide) (by decide)
theorem cpxZp (b : Byte) : Statement (.cpxZp b) := of_length (n := 2) rfl (by decide) (by decide)
theorem cpxAbs (w : Word) : Statement (.cpxAbs w) := of_length (n := 3) rfl (by decide) (by decide)
theorem cpyImm (v : Byte) : Statement (.cpyImm v) := of_length (n := 2) rfl (by decide) (by decide)
theorem cpyZp (b : Byte) : Statement (.cpyZp b) := of_length (n := 2) rfl (by decide) (by decide)
theorem cpyAbs (w : Word) : Statement (.cpyAbs w) := of_length (n := 3) rfl (by decide) (by decide)
theorem clc : Statement .clc := of_length (n := 1) rfl (by decide) (by decide)
theorem cld : Statement .cld := of_length (n := 1) rfl (by decide) (by decide)
theorem cli : Statement .cli := of_length (n := 1) rfl (by decide) (by decide)
theorem clv : Statement .clv := of_length (n := 1) rfl (by decide) (by decide)
theorem sec : Statement .sec := of_length (n := 1) rfl (by decide) (by decide)
theorem sed : Statement .sed := of_length (n := 1) rfl (by decide) (by decide)
theorem sei : Statement .sei := of_length (n := 1) rfl (by decide) (by decide)
theorem nop : Statement .nop := of_length (n := 1) rfl (by decide) (by decide)

end Sys2Proof.Laws.EncodingLength
end

