-- ==== Sys2Proof/Laws/Run.lean ====
section
/-! SUPPORT. One iteration of the run loop (R225) for each way it can go, and what a run makes of the loop's result. -/

namespace Sys2Proof.Machine

/-- The loop test ends the run, whatever fuel is left. -/
theorem runLoop_of_spent {budget : Nat} {s : State} (fuel : Nat) (h : budget ≤ s.cycles) :
    runLoop budget fuel s = .returned s.cycles s := by
  cases fuel with
  | zero => rfl
  | succ n => simp [runLoop, Nat.not_lt.mpr h]

theorem runLoop_of_next {budget : Nat} {s t : State} (fuel : Nat) (h : s.cycles < budget) (hs : step s = .next t)
    (ht : t.halted = false) : runLoop budget (fuel + 1) s = runLoop budget fuel t := by
  simp [runLoop, h, hs, ht]

theorem runLoop_of_halt {budget : Nat} {s t : State} (fuel : Nat) (h : s.cycles < budget) (hs : step s = .next t)
    (ht : t.halted = true) : runLoop budget (fuel + 1) s = .faulted t.faultAddr t.faultOp t := by
  simp [runLoop, h, hs, ht]

theorem execute_idle {budget : Nat} {s : State} (h : s.halted = false) :
    execute budget s = endRun (runLoop budget budget s.dropCount) := by simp [execute, h]

theorem execute_halted {budget : Nat} {s : State} (h : s.halted = true) :
    execute budget s = .faulted s.faultAddr s.faultOp s := by simp [execute, h]

theorem endRun_eq_returned {r : RunResult} {used : Nat} {t : State} :
    endRun r = .returned used t ↔ ∃ s, r = .returned used s ∧ t = s.dropCount := by
  cases r <;> simp [endRun, eq_comm]

theorem endRun_eq_faulted {r : RunResult} {addr : Word} {op : Byte} {t : State} :
    endRun r = .faulted addr op t ↔ ∃ s, r = .faulted addr op s ∧ t = s.dropCount := by
  cases r <;> simp [endRun, eq_comm, and_assoc]

end Sys2Proof.Machine
end

