-- ==== Sys2Proof/Tests/Slice0.lean ====
section
/-! SUPPORT. The model's own tests: what the checks refuse, every constructor's decoding, single steps of the spec's vectors, a few
runs and host requests, and for each statement with hypotheses a witness that they can be met. -/

namespace Sys2Proof.Tests

open Sys2Proof.Machine

/-- A core just reset to `addr`, with bytes from there on and the given items written. -/
def boot (addr : Word) (bytes : List Byte) (items : List HostWrite) : State :=
  items.foldl (fun s w => applyHostWrite w s) { State.resetTo addr with mem := Memory.writeList [] addr.toNat bytes }

/-- A step answers a next state with a property. -/
def ends (s : State) (p : State → Bool) : Bool :=
  match step s with
  | .next t => p t
  | .fault _ => false
  | .refused _ => false

/-- A run returns, having used so many cycles, in a state with a property. -/
def returns (r : RunResult) (used : Nat) (p : State → Bool) : Bool :=
  match r with
  | .returned k s => k == used && p s
  | .faulted _ _ _ => false
  | .refused _ => false

/-- A run faults with the given report, halted, in a state with a property. -/
def faults (r : RunResult) (addr : Word) (op : Byte) (p : State → Bool) : Bool :=
  match r with
  | .returned _ _ => false
  | .faulted a o s => a == addr && o == op && s.halted && p s
  | .refused _ => false

/-! ### What the checks refuse -/

/-- Every instruction is well formed (R65), so only images and memories can be ill formed. -/
theorem test_every_instruction_is_well_formed (i : Instr) : i.WellFormed := trivial

/-- R231: one byte is no load address. -/
theorem test_image_too_short : imageHasAddress [0x00] = false ∧ imageHasAddress [0x00, 0x06] = true := by decide

/-- R231: a body of two bytes fits at 0xFFFE and not at 0xFFFF. -/
theorem test_image_past_top :
    imageFits [0xFE, 0xFF, 0xEA, 0xEA] = true ∧ imageFits [0xFF, 0xFF, 0xEA, 0xEA] = false := by decide

/-- Addresses out of order, a repeated address, a listed cleared byte, an address past the top. -/
theorem test_memory_not_canonical :
    ¬ Memory.wf [(2, 1), (1, 1)] ∧ ¬ Memory.wf [(1, 1), (1, 2)] ∧ ¬ Memory.wf [(1, 0)] ∧ ¬ Memory.wf [(65536, 1)] ∧
    Memory.wf [(1, 2), (65535, 3)] := by decide

/-- A write of the value an unlisted address reads as removes the entry. -/
theorem test_memory_write_clears : Memory.write [(5, 7), (9, 1)] 5 0 = [(9, 1)] := by decide

/-! ### Decoding: each constructor's word, written out from the tables of spec/40 to spec/48. The operand bytes are 0x11, 0x22. -/

/-- R100 to R105. -/
theorem test_decode_lda_ldx :
    [0xA9, 0xA5, 0xB5, 0xAD, 0xBD, 0xB9, 0xA1, 0xB1, 0xA2, 0xA6, 0xB6, 0xAE, 0xBE].map (fun op => decodeAt op 0x11 0x22) =
    [some (.ldaImm 0x11), some (.ldaZp 0x11), some (.ldaZpX 0x11), some (.ldaAbs 0x2211), some (.ldaAbsX 0x2211),
      some (.ldaAbsY 0x2211), some (.ldaIndX 0x11), some (.ldaIndY 0x11), some (.ldxImm 0x11), some (.ldxZp 0x11),
      some (.ldxZpY 0x11), some (.ldxAbs 0x2211), some (.ldxAbsY 0x2211)] := by decide

/-- R100 to R105. -/
theorem test_decode_ldy_sta_stx :
    [0xA0, 0xA4, 0xB4, 0xAC, 0xBC, 0x85, 0x95, 0x8D, 0x9D, 0x99, 0x81, 0x91, 0x86, 0x96, 0x8E].map
      (fun op => decodeAt op 0x11 0x22) =
    [some (.ldyImm 0x11), some (.ldyZp 0x11), some (.ldyZpX 0x11), some (.ldyAbs 0x2211), some (.ldyAbsX 0x2211),
      some (.staZp 0x11), some (.staZpX 0x11), some (.staAbs 0x2211), some (.staAbsX 0x2211), some (.staAbsY 0x2211),
      some (.staIndX 0x11), some (.staIndY 0x11), some (.stxZp 0x11), some (.stxZpY 0x11), some (.stxAbs 0x2211)] :=
      by decide

/-- R100 to R105. -/
theorem test_decode_sty :
    [0x84, 0x94, 0x8C].map (fun op => decodeAt op 0x11 0x22) =
    [some (.styZp 0x11), some (.styZpX 0x11), some (.styAbs 0x2211)] := by decide

/-- R110 to R115. -/
theorem test_decode_tax_to_txs :
    [0xAA, 0xA8, 0x8A, 0x98, 0xBA, 0x9A].map (fun op => decodeAt op 0x11 0x22) =
    [some .tax, some .tay, some .txa, some .tya, some .tsx, some .txs] := by decide

/-- R120 to R123. -/
theorem test_decode_pha_to_plp :
    [0x48, 0x08, 0x68, 0x28].map (fun op => decodeAt op 0x11 0x22) =
    [some .pha, some .php, some .pla, some .plp] := by decide

/-- R130 to R133. -/
theorem test_decode_and_ora :
    [0x29, 0x25, 0x35, 0x2D, 0x3D, 0x39, 0x21, 0x31, 0x09, 0x05, 0x15, 0x0D, 0x1D, 0x19, 0x01, 0x11].map
      (fun op => decodeAt op 0x11 0x22) =
    [some (.andImm 0x11), some (.andZp 0x11), some (.andZpX 0x11), some (.andAbs 0x2211), some (.andAbsX 0x2211),
      some (.andAbsY 0x2211), some (.andIndX 0x11), some (.andIndY 0x11), some (.oraImm 0x11), some (.oraZp 0x11),
      some (.oraZpX 0x11), some (.oraAbs 0x2211), some (.oraAbsX 0x2211), some (.oraAbsY 0x2211), some (.oraIndX 0x11),
      some (.oraIndY 0x11)] := by decide

/-- R130 to R133. -/
theorem test_decode_eor_bit :
    [0x49, 0x45, 0x55, 0x4D, 0x5D, 0x59, 0x41, 0x51, 0x24, 0x2C].map (fun op => decodeAt op 0x11 0x22) =
    [some (.eorImm 0x11), some (.eorZp 0x11), some (.eorZpX 0x11), some (.eorAbs 0x2211), some (.eorAbsX 0x2211),
      some (.eorAbsY 0x2211), some (.eorIndX 0x11), some (.eorIndY 0x11), some (.bitZp 0x11), some (.bitAbs 0x2211)] :=
      by decide

/-- R140 to R145. -/
theorem test_decode_inc_to_dey :
    [0xE6, 0xF6, 0xEE, 0xFE, 0xC6, 0xD6, 0xCE, 0xDE, 0xE8, 0xC8, 0xCA, 0x88].map (fun op => decodeAt op 0x11 0x22) =
    [some (.incZp 0x11), some (.incZpX 0x11), some (.incAbs 0x2211), some (.incAbsX 0x2211), some (.decZp 0x11),
      some (.decZpX 0x11), some (.decAbs 0x2211), some (.decAbsX 0x2211), some .inx, some .iny, some .dex, some .dey] :=
      by decide

/-- R150 to R153. -/
theorem test_decode_jmp_jsr_rts :
    [0x4C, 0x6C, 0x20, 0x60].map (fun op => decodeAt op 0x11 0x22) =
    [some (.jmpAbs 0x2211), some (.jmpInd 0x2211), some (.jsr 0x2211), some .rts] := by decide

/-- R160 to R168. -/
theorem test_decode_beq_to_bvc :
    [0xF0, 0xD0, 0xB0, 0x90, 0x30, 0x10, 0x70, 0x50].map (fun op => decodeAt op 0x11 0x22) =
    [some (.beq 0x11), some (.bne 0x11), some (.bcs 0x11), some (.bcc 0x11), some (.bmi 0x11), some (.bpl 0x11),
      some (.bvs 0x11), some (.bvc 0x11)] := by decide

/-- R170 to R174. -/
theorem test_decode_adc_sbc :
    [0x69, 0x65, 0x75, 0x6D, 0x7D, 0x79, 0x61, 0x71, 0xE9, 0xE5, 0xF5, 0xED, 0xFD, 0xF9, 0xE1, 0xF1].map
      (fun op => decodeAt op 0x11 0x22) =
    [some (.adcImm 0x11), some (.adcZp 0x11), some (.adcZpX 0x11), some (.adcAbs 0x2211), some (.adcAbsX 0x2211),
      some (.adcAbsY 0x2211), some (.adcIndX 0x11), some (.adcIndY 0x11), some (.sbcImm 0x11), some (.sbcZp 0x11),
      some (.sbcZpX 0x11), some (.sbcAbs 0x2211), some (.sbcAbsX 0x2211), some (.sbcAbsY 0x2211), some (.sbcIndX 0x11),
      some (.sbcIndY 0x11)] := by decide

/-- R170 to R174. -/
theorem test_decode_cmp_cpx_cpy :
    [0xC9, 0xC5, 0xD5, 0xCD, 0xDD, 0xD9, 0xC1, 0xD1, 0xE0, 0xE4, 0xEC, 0xC0, 0xC4, 0xCC].map
      (fun op => decodeAt op 0x11 0x22) =
    [some (.cmpImm 0x11), some (.cmpZp 0x11), some (.cmpZpX 0x11), some (.cmpAbs 0x2211), some (.cmpAbsX 0x2211),
      some (.cmpAbsY 0x2211), some (.cmpIndX 0x11), some (.cmpIndY 0x11), some (.cpxImm 0x11), some (.cpxZp 0x11),
      some (.cpxAbs 0x2211), some (.cpyImm 0x11), some (.cpyZp 0x11), some (.cpyAbs 0x2211)] := by decide

/-- R180 to R187. -/
theorem test_decode_clc_to_nop :
    [0x18, 0xD8, 0x58, 0xB8, 0x38, 0xF8, 0x78, 0xEA].map (fun op => decodeAt op 0x11 0x22) =
    [some .clc, some .cld, some .cli, some .clv, some .sec, some .sed, some .sei, some .nop] := by decide

/-- R65: published mnemonics that this core does not have (BRK, RTI, ASL A, ROR A) and undocumented bytes. -/
theorem test_decode_unrecognized :
    [0x00, 0x40, 0x0A, 0x6A, 0x02, 0x1A, 0xFF, 0x80].map (fun op => decodeAt op 0x11 0x22) = List.replicate 8 none := by decide

/-- spec/opcode_table.json numbers the opcode byte lowest: LDA $4480,X is the word 0x4480BD of 24 bits. -/
theorem test_table_word : decodeTableWord 24 0x4480BD = some (.ldaAbsX 0x4480) := by decide

/-- A row given without its operand bytes has operands of zeros. -/
theorem test_table_word_short : decodeTableWord 8 0x4C = some (.jmpAbs 0x0000) := by decide

/-- The word of JMP $FFF0 runs as the first instruction after reset. -/
theorem test_with_fetch_word :
    ends (State.reset.withFetchWord 24 0xFFF04C) (fun t => t.pc == 0xFFF0 && t.cycles == 3 && t.sp == 0xFD) = true := by decide

/-! ### Single steps, the vectors of spec/95_test_vectors.md -/

/-- Section 2.1: LDA #$00. -/
theorem test_lda_imm_zero :
    ends (boot 0x0600 [0xA9, 0x00] [.flag .c true, .flag .v true, .a 0x55]) (fun t => t.pc == 0x0602 && t.a == 0x00
      && t.flags.c && t.flags.z && t.flags.v && !t.flags.n && t.cycles == 2) = true := by decide

/-- Section 2.1: LDA $80,X. -/
theorem test_lda_zpx_wraps :
    ends (boot 0x0600 [0xB5, 0x80] [.x 0xFF, .cell 0x007F 0x11, .cell 0x017F 0x22]) (fun t => t.pc == 0x0602 && t.a == 0x11
      && t.cycles == 4) = true := by decide

/-- Section 2.1: LDA $FFFF,X. -/
theorem test_lda_absx_wraps_past_top :
    ends (boot 0x0600 [0xBD, 0xFF, 0xFF] [.x 0x02, .cell 0x0001 0x77]) (fun t => t.pc == 0x0603 && t.a == 0x77
      && t.cycles == 5) = true := by decide

/-- Section 2.1: LDA ($FE,X). -/
theorem test_lda_indx_wraps :
    ends (boot 0x0600 [0xA1, 0xFE] [.x 0x03, .cell 0x0001 0x00, .cell 0x0002 0x30, .cell 0x3000 0x5A])
      (fun t => t.pc == 0x0602 && t.a == 0x5A && t.cycles == 6) = true := by decide

/-- Section 2.1: LDA ($86),Y. -/
theorem test_lda_indy_crosses :
    ends (boot 0x0600 [0xB1, 0x86] [.y 0xFF, .cell 0x0086 0x28, .cell 0x0087 0x40, .cell 0x4127 0x80])
      (fun t => t.pc == 0x0602 && t.a == 0x80 && t.flags.n && t.cycles == 6) = true := by decide

/-- Section 2.1: LDA ($FF),Y. -/
theorem test_lda_indy_vector_ff :
    ends (boot 0x0600 [0xB1, 0xFF] [.y 0x00, .cell 0x00FF 0x34, .cell 0x0100 0x12, .cell 0x0000 0x56, .cell 0x1234 0x0A,
      .cell 0x5634 0x0B]) (fun t => t.pc == 0x0602 && t.a == 0x0A && t.cycles == 5) = true := by decide

/-- Section 2.1: LDX $10,Y. -/
theorem test_ldx_zpy_wraps :
    ends (boot 0x0600 [0xB6, 0x10] [.y 0xF8, .cell 0x0008 0x00, .x 0x05]) (fun t => t.pc == 0x0602 && t.x == 0x00
      && t.flags.z && t.cycles == 4) = true := by decide

/-- Section 2.1: LDX $12F0,Y. -/
theorem test_ldx_absy_crosses :
    ends (boot 0x0600 [0xBE, 0xF0, 0x12] [.y 0x10, .cell 0x1300 0x40]) (fun t => t.pc == 0x0603 && t.x == 0x40
      && t.cycles == 5) = true := by decide

/-- Section 2.1: LDY #$01. -/
theorem test_ldy_imm :
    ends (boot 0x0600 [0xA0, 0x01] [.flag .z true]) (fun t => t.pc == 0x0602 && t.y == 0x01 && !t.flags.z
      && t.cycles == 2) = true := by decide

/-- Section 2.1: LDY $12F0,X. -/
theorem test_ldy_absx_same_page :
    ends (boot 0x0600 [0xBC, 0xF0, 0x12] [.x 0x0F, .cell 0x12FF 0x81]) (fun t => t.pc == 0x0603 && t.y == 0x81 && t.flags.n
      && t.cycles == 4) = true := by decide

/-- Section 2.1: STA $12F0,X. -/
theorem test_sta_absx_crosses :
    ends (boot 0x0600 [0x9D, 0xF0, 0x12] [.a 0x77, .x 0x20]) (fun t => t.pc == 0x0603 && byteAt t 0x1310 == 0x77
      && t.cycles == 5) = true := by decide

/-- Section 2.1: STA ($86),Y. -/
theorem test_sta_indy_crosses :
    ends (boot 0x0600 [0x91, 0x86] [.a 0x9A, .y 0xFF, .cell 0x0086 0x28, .cell 0x0087 0x40]) (fun t => t.pc == 0x0602
      && byteAt t 0x4127 == 0x9A && t.cycles == 6) = true := by decide

/-- Section 2.1: STX $10,Y. -/
theorem test_stx_zpy_wraps :
    ends (boot 0x0600 [0x96, 0x10] [.x 0xAA, .y 0xF0]) (fun t => t.pc == 0x0602 && byteAt t 0x0000 == 0xAA
      && t.cycles == 4) = true := by decide

/-- Section 2.1: STX $0200. -/
theorem test_stx_abs :
    ends (boot 0x0600 [0x8E, 0x00, 0x02] [.x 0x01]) (fun t => t.pc == 0x0603 && byteAt t 0x0200 == 0x01
      && t.cycles == 4) = true := by decide

/-- Section 2.1: STY $10,X. -/
theorem test_sty_zpx :
    ends (boot 0x0600 [0x94, 0x10] [.y 0xBB, .x 0x01]) (fun t => t.pc == 0x0602 && byteAt t 0x0011 == 0xBB
      && t.cycles == 4) = true := by decide

/-- Section 2.1: STY $00. -/
theorem test_sty_zp :
    ends (boot 0x0600 [0x84, 0x00] [.y 0xCC]) (fun t => t.pc == 0x0602 && byteAt t 0x0000 == 0xCC && t.cycles == 3) = true
      := by decide

/-- Section 2.2: TAX. -/
theorem test_tax_negative :
    ends (boot 0x0600 [0xAA] [.a 0x80]) (fun t => t.pc == 0x0601 && t.x == 0x80 && t.flags.n && t.cycles == 2) = true :=
      by decide

/-- Section 2.2: TAY. -/
theorem test_tay_clears_zn :
    ends (boot 0x0600 [0xA8] [.a 0x7F, .flag .z true, .flag .n true]) (fun t => t.pc == 0x0601 && t.y == 0x7F && !t.flags.z
      && !t.flags.n && t.cycles == 2) = true := by decide

/-- Section 2.2: TXA. -/
theorem test_txa_keeps_c_v :
    ends (boot 0x0600 [0x8A] [.x 0xFF, .a 0x01, .flag .c true, .flag .v true]) (fun t => t.pc == 0x0601 && t.a == 0xFF
      && t.flags.n && t.cycles == 2) = true := by decide

/-- Section 2.2: TYA. -/
theorem test_tya_zero :
    ends (boot 0x0600 [0x98] [.y 0x00, .a 0x01]) (fun t => t.pc == 0x0601 && t.a == 0x00 && t.flags.z
      && t.cycles == 2) = true := by decide

/-- Section 2.2: TSX. -/
theorem test_tsx_zero :
    ends (boot 0x0600 [0xBA] [.sp 0x00, .x 0x33]) (fun t => t.pc == 0x0601 && t.x == 0x00 && t.flags.z
      && t.cycles == 2) = true := by decide

/-- Section 2.2: TXS. -/
theorem test_txs_writes_no_flag :
    ends (boot 0x0600 [0x9A] [.x 0x00, .flag .z false, .flag .n true]) (fun t => t.pc == 0x0601 && t.sp == 0x00
      && !t.flags.z && t.flags.n && t.cycles == 2) = true := by decide

/-- Section 2.3: PHA. -/
theorem test_pha_wraps :
    ends (boot 0x0600 [0x48] [.a 0x00, .sp 0x00, .flag .z false]) (fun t => t.pc == 0x0601 && t.sp == 0xFF && !t.flags.z
      && byteAt t 0x0100 == 0x00 && t.cycles == 3) = true := by decide

/-- Section 2.3: PHP. -/
theorem test_php_forces_bits :
    ends (boot 0x0600 [0x08] []) (fun t => t.pc == 0x0601 && t.sp == 0xFC && byteAt t 0x01FD == 0x30
      && t.cycles == 3) = true := by decide

/-- Section 2.3: PHP. -/
theorem test_php_bit_order :
    ends (boot 0x0600 [0x08] [.flag .c true, .flag .n true, .flag .b true, .flag .u true]) (fun t => t.pc == 0x0601
      && t.sp == 0xFC && byteAt t 0x01FD == 0xB1 && t.cycles == 3) = true := by decide

/-- Section 2.3: PLA. -/
theorem test_pla_zero :
    ends (boot 0x0600 [0x68] [.sp 0xFC, .cell 0x01FD 0x00, .a 0x55]) (fun t => t.pc == 0x0601 && t.sp == 0xFD && t.a == 0x00
      && t.flags.z && t.cycles == 4) = true := by decide

/-- Section 2.3: PLA. -/
theorem test_pla_wraps :
    ends (boot 0x0600 [0x68] [.sp 0xFF, .cell 0x0100 0x80]) (fun t => t.pc == 0x0601 && t.sp == 0x00 && t.a == 0x80
      && t.flags.n && t.cycles == 4) = true := by decide

/-- Section 2.3: PLP. -/
theorem test_plp_keeps_b_u :
    ends (boot 0x0600 [0x28] [.sp 0xFC, .cell 0x01FD 0x00, .flag .c true, .flag .z true, .flag .i true, .flag .d true, .flag
      .v true, .flag .n true, .flag .b true, .flag .u true]) (fun t => t.pc == 0x0601 && t.sp == 0xFD && !t.flags.c
      && !t.flags.z && !t.flags.i && !t.flags.d && t.flags.b && t.flags.u && !t.flags.v && !t.flags.n
      && t.cycles == 4) = true := by decide

/-- Section 2.3: PLP. -/
theorem test_plp_bit_order :
    ends (boot 0x0600 [0x28] [.sp 0xFC, .cell 0x01FD 0xC3]) (fun t => t.pc == 0x0601 && t.sp == 0xFD && t.flags.c
      && t.flags.z && t.flags.v && t.flags.n && t.cycles == 4) = true := by decide

/-- Section 2.4: AND #$80. -/
theorem test_and_imm_keeps_c_v :
    ends (boot 0x0600 [0x29, 0x80] [.a 0xFF, .flag .c true, .flag .v true]) (fun t => t.pc == 0x0602 && t.a == 0x80
      && t.flags.n && t.cycles == 2) = true := by decide

/-- Section 2.4: AND $12F0,Y. -/
theorem test_and_absy_crosses :
    ends (boot 0x0600 [0x39, 0xF0, 0x12] [.a 0xFF, .y 0x10, .cell 0x1300 0x01]) (fun t => t.pc == 0x0603 && t.a == 0x01
      && t.cycles == 5) = true := by decide

/-- Section 2.4: ORA #$80. -/
theorem test_ora_imm_negative :
    ends (boot 0x0600 [0x09, 0x80] [.a 0x01]) (fun t => t.pc == 0x0602 && t.a == 0x81 && t.flags.n && t.cycles == 2) = true
      := by decide

/-- Section 2.4: ORA ($20,X). -/
theorem test_ora_indx :
    ends (boot 0x0600 [0x01, 0x20] [.a 0x0F, .x 0x00, .cell 0x0020 0x00, .cell 0x0021 0x02, .cell 0x0200 0xF0])
      (fun t => t.pc == 0x0602 && t.a == 0xFF && t.flags.n && t.cycles == 6) = true := by decide

/-- Section 2.4: EOR #$FF. -/
theorem test_eor_imm_zero :
    ends (boot 0x0600 [0x49, 0xFF] [.a 0xFF]) (fun t => t.pc == 0x0602 && t.a == 0x00 && t.flags.z && t.cycles == 2) = true
      := by decide

/-- Section 2.4: EOR ($30),Y. -/
theorem test_eor_indy_crosses :
    ends (boot 0x0600 [0x51, 0x30] [.a 0xAA, .y 0x01, .cell 0x0030 0xFF, .cell 0x0031 0x02, .cell 0x0300 0x55])
      (fun t => t.pc == 0x0602 && t.a == 0xFF && t.flags.n && t.cycles == 6) = true := by decide

/-- Section 2.4: BIT $10. -/
theorem test_bit_v_without_n :
    ends (boot 0x0600 [0x24, 0x10] [.a 0xFF, .cell 0x0010 0x40, .flag .n true]) (fun t => t.pc == 0x0602 && !t.flags.z
      && t.flags.v && !t.flags.n && t.cycles == 3) = true := by decide

/-- Section 2.4: BIT $10. -/
theorem test_bit_clears_all :
    ends (boot 0x0600 [0x24, 0x10] [.a 0x0F, .cell 0x0010 0x0F, .flag .v true, .flag .n true, .flag .z true])
      (fun t => t.pc == 0x0602 && !t.flags.z && !t.flags.v && !t.flags.n && t.cycles == 3) = true := by decide

/-- Section 2.5: INC $10. -/
theorem test_inc_zp_wraps :
    ends (boot 0x0600 [0xE6, 0x10] [.cell 0x0010 0xFF]) (fun t => t.pc == 0x0602 && t.flags.z && byteAt t 0x0010 == 0x00
      && t.cycles == 5) = true := by decide

/-- Section 2.5: INC $12F0,X. -/
theorem test_inc_absx_crosses :
    ends (boot 0x0600 [0xFE, 0xF0, 0x12] [.x 0x10, .cell 0x1300 0x41]) (fun t => t.pc == 0x0603 && byteAt t 0x1300 == 0x42
      && t.cycles == 7) = true := by decide

/-- Section 2.5: DEC $10. -/
theorem test_dec_zp_wraps :
    ends (boot 0x0600 [0xC6, 0x10] [.cell 0x0010 0x00]) (fun t => t.pc == 0x0602 && t.flags.n && byteAt t 0x0010 == 0xFF
      && t.cycles == 5) = true := by decide

/-- Section 2.5: DEC $12F0,X. -/
theorem test_dec_absx_same_page :
    ends (boot 0x0600 [0xDE, 0xF0, 0x12] [.x 0x01, .cell 0x12F1 0x10]) (fun t => t.pc == 0x0603 && byteAt t 0x12F1 == 0x0F
      && t.cycles == 7) = true := by decide

/-- Section 2.5: INX. -/
theorem test_inx_wraps :
    ends (boot 0x0600 [0xE8] [.x 0xFF]) (fun t => t.pc == 0x0601 && t.x == 0x00 && t.flags.z && t.cycles == 2) = true :=
      by decide

/-- Section 2.5: INY. -/
theorem test_iny_wraps :
    ends (boot 0x0600 [0xC8] [.y 0xFF]) (fun t => t.pc == 0x0601 && t.y == 0x00 && t.flags.z && t.cycles == 2) = true :=
      by decide

/-- Section 2.5: DEX. -/
theorem test_dex_wraps :
    ends (boot 0x0600 [0xCA] [.x 0x00]) (fun t => t.pc == 0x0601 && t.x == 0xFF && t.flags.n && t.cycles == 2) = true :=
      by decide

/-- Section 2.5: DEY. -/
theorem test_dey_leaves_c_v :
    ends (boot 0x0600 [0x88] [.y 0x80, .flag .c true, .flag .v true]) (fun t => t.pc == 0x0601 && t.y == 0x7F
      && t.cycles == 2) = true := by decide

/-- Section 2.6: JMP $1234. -/
theorem test_jmp_abs :
    ends (boot 0x0600 [0x4C, 0x34, 0x12] []) (fun t => t.pc == 0x1234 && t.cycles == 3) = true := by decide

/-- Section 2.6: JMP ($02FF). -/
theorem test_jmp_ind_page_end :
    ends (boot 0x0600 [0x6C, 0xFF, 0x02] [.cell 0x02FF 0x34, .cell 0x0300 0x12, .cell 0x0200 0x56]) (fun t => t.pc == 0x1234
      && t.cycles == 5) = true := by decide

/-- Section 2.6: JSR $8000. -/
theorem test_jsr_stack_wraps :
    ends (boot 0x0600 [0x20, 0x00, 0x80] [.sp 0x00]) (fun t => t.pc == 0x8000 && t.sp == 0xFE && byteAt t 0x0100 == 0x06
      && byteAt t 0x01FF == 0x02 && t.cycles == 6) = true := by decide

/-- Section 2.6: JSR $0000. -/
theorem test_jsr_at_fffd :
    ends (boot 0xFFFD [0x20, 0x00, 0x00] []) (fun t => t.pc == 0x0000 && t.sp == 0xFB && byteAt t 0x01FD == 0xFF
      && byteAt t 0x01FC == 0xFF && t.cycles == 6) = true := by decide

/-- Section 2.6: RTS. -/
theorem test_rts_wraps_pc :
    ends (boot 0x8000 [0x60] [.sp 0xFB, .cell 0x01FC 0xFF, .cell 0x01FD 0xFF]) (fun t => t.pc == 0x0000 && t.sp == 0xFD
      && t.cycles == 6) = true := by decide

/-- Section 2.6: RTS. -/
theorem test_rts_stack_wraps :
    ends (boot 0x8000 [0x60] [.sp 0xFF, .cell 0x0100 0x33, .cell 0x0101 0x44]) (fun t => t.pc == 0x4434 && t.sp == 0x01
      && t.cycles == 6) = true := by decide

/-- Section 2.7: BNE +127. -/
theorem test_bne_plus_127 :
    ends (boot 0x0600 [0xD0, 0x7F] [.flag .z false]) (fun t => t.pc == 0x0681 && t.cycles == 3) = true := by decide

/-- Section 2.7: BNE -128. -/
theorem test_bne_minus_128 :
    ends (boot 0x0600 [0xD0, 0x80] [.flag .z false]) (fun t => t.pc == 0x0582 && t.cycles == 4) = true := by decide

/-- Section 2.7: BCS +0. -/
theorem test_bcs_taken_to_next :
    ends (boot 0x0600 [0xB0, 0x00] [.flag .c true]) (fun t => t.pc == 0x0602 && t.cycles == 3) = true := by decide

/-- Section 2.7: BCS +0. -/
theorem test_bcs_not_taken :
    ends (boot 0x0600 [0xB0, 0x00] [.flag .c false]) (fun t => t.pc == 0x0602 && t.cycles == 2) = true := by decide

/-- Section 2.7: BCC +2. -/
theorem test_bcc_taken :
    ends (boot 0x0600 [0x90, 0x02] [.flag .c false]) (fun t => t.pc == 0x0604 && t.cycles == 3) = true := by decide

/-- Section 2.7: BMI +2. -/
theorem test_bmi_taken :
    ends (boot 0x0600 [0x30, 0x02] [.flag .n true]) (fun t => t.pc == 0x0604 && t.cycles == 3) = true := by decide

/-- Section 2.7: BPL +2. -/
theorem test_bpl_not_taken :
    ends (boot 0x0600 [0x10, 0x02] [.flag .n true]) (fun t => t.pc == 0x0602 && t.cycles == 2) = true := by decide

/-- Section 2.7: BVS +2. -/
theorem test_bvs_taken :
    ends (boot 0x0600 [0x70, 0x02] [.flag .v true]) (fun t => t.pc == 0x0604 && t.cycles == 3) = true := by decide

/-- Section 2.7: BVC +2. -/
theorem test_bvc_not_taken :
    ends (boot 0x0600 [0x50, 0x02] [.flag .v true]) (fun t => t.pc == 0x0602 && t.cycles == 2) = true := by decide

/-- Section 2.7: BEQ -1. -/
theorem test_beq_back_across_page :
    ends (boot 0x06FE [0xF0, 0xFF] [.flag .z true]) (fun t => t.pc == 0x06FF && t.cycles == 4) = true := by decide

/-- Section 2.7: BEQ +4. -/
theorem test_beq_wraps_past_top :
    ends (boot 0xFFFC [0xF0, 0x04] [.flag .z true]) (fun t => t.pc == 0x0002 && t.cycles == 4) = true := by decide

/-- Section 2.8: ADC #$00. -/
theorem test_adc_carry_overflows :
    ends (boot 0x0600 [0x69, 0x00] [.a 0x7F, .flag .c true]) (fun t => t.pc == 0x0602 && t.a == 0x80 && !t.flags.c
      && !t.flags.z && t.flags.v && t.flags.n && t.cycles == 2) = true := by decide

/-- Section 2.8: SBC #$80. -/
theorem test_sbc_overflows :
    ends (boot 0x0600 [0xE9, 0x80] [.a 0x00, .flag .c true]) (fun t => t.pc == 0x0602 && t.a == 0x80 && !t.flags.c
      && !t.flags.z && t.flags.v && t.flags.n && t.cycles == 2) = true := by decide

/-- Section 2.8: ADC #$09. -/
theorem test_adc_ignores_decimal :
    ends (boot 0x0600 [0x69, 0x09] [.a 0x09, .flag .d true]) (fun t => t.pc == 0x0602 && t.a == 0x12 && !t.flags.c
      && !t.flags.z && !t.flags.v && !t.flags.n && t.cycles == 2) = true := by decide

/-- Section 2.8: SBC ($30),Y. -/
theorem test_sbc_indy_crosses :
    ends (boot 0x0600 [0xF1, 0x30] [.a 0x10, .y 0x01, .flag .c true, .cell 0x0030 0xFF, .cell 0x0031 0x02, .cell 0x0300
      0x10]) (fun t => t.pc == 0x0602 && t.a == 0x00 && t.flags.c && t.flags.z && !t.flags.v && !t.flags.n
      && t.cycles == 6) = true := by decide

/-- Section 2.8: CMP #$00. -/
theorem test_cmp_imm_unsigned :
    ends (boot 0x0600 [0xC9, 0x00] [.a 0xFF, .flag .v true]) (fun t => t.pc == 0x0602 && t.flags.c && !t.flags.z
      && t.flags.v && t.flags.n && t.cycles == 2) = true := by decide

/-- Section 2.8: CPX #$10. -/
theorem test_cpx_greater :
    ends (boot 0x0600 [0xE0, 0x10] [.x 0x20, .flag .v true]) (fun t => t.pc == 0x0602 && t.flags.c && !t.flags.z
      && t.flags.v && !t.flags.n && t.cycles == 2) = true := by decide

/-- Section 2.8: CPY #$01. -/
theorem test_cpy_less :
    ends (boot 0x0600 [0xC0, 0x01] [.y 0x00, .flag .v true]) (fun t => t.pc == 0x0602 && !t.flags.c && !t.flags.z
      && t.flags.v && t.flags.n && t.cycles == 2) = true := by decide

/-- Section 2.8: CMP $12F0,Y. -/
theorem test_cmp_absy_crosses :
    ends (boot 0x0600 [0xD9, 0xF0, 0x12] [.a 0x05, .y 0x10, .cell 0x1300 0x05]) (fun t => t.pc == 0x0603 && t.flags.c
      && t.flags.z && !t.flags.n && t.cycles == 5) = true := by decide

/-- Section 2.8: CPX $10. -/
theorem test_cpx_zp_less :
    ends (boot 0x0600 [0xE4, 0x10] [.x 0x05, .cell 0x0010 0x06]) (fun t => t.pc == 0x0602 && !t.flags.c && !t.flags.z
      && t.flags.n && t.cycles == 3) = true := by decide

/-- Section 2.8: CPY $1234. -/
theorem test_cpy_abs :
    ends (boot 0x0600 [0xCC, 0x34, 0x12] [.y 0x05, .cell 0x1234 0x04]) (fun t => t.pc == 0x0603 && t.flags.c && !t.flags.z
      && !t.flags.n && t.cycles == 4) = true := by decide

/-- Section 2.9: CLC. -/
theorem test_clc :
    ends (boot 0x0600 [0x18] [.flag .c true]) (fun t => t.pc == 0x0601 && !t.flags.c && t.cycles == 2) = true := by decide

/-- Section 2.9: SEC. -/
theorem test_sec :
    ends (boot 0x0600 [0x38] []) (fun t => t.pc == 0x0601 && t.flags.c && t.cycles == 2) = true := by decide

/-- Section 2.9: CLD. -/
theorem test_cld :
    ends (boot 0x0600 [0xD8] [.flag .d true]) (fun t => t.pc == 0x0601 && !t.flags.d && t.cycles == 2) = true := by decide

/-- Section 2.9: SED. -/
theorem test_sed :
    ends (boot 0x0600 [0xF8] []) (fun t => t.pc == 0x0601 && t.flags.d && t.cycles == 2) = true := by decide

/-- Section 2.9: CLI. -/
theorem test_cli :
    ends (boot 0x0600 [0x58] [.flag .i true]) (fun t => t.pc == 0x0601 && !t.flags.i && t.cycles == 2) = true := by decide

/-- Section 2.9: SEI. -/
theorem test_sei :
    ends (boot 0x0600 [0x78] []) (fun t => t.pc == 0x0601 && t.flags.i && t.cycles == 2) = true := by decide

/-- Section 2.9: CLV. -/
theorem test_clv :
    ends (boot 0x0600 [0xB8] [.flag .v true]) (fun t => t.pc == 0x0601 && !t.flags.v && t.cycles == 2) = true := by decide

/-- Section 2.9: NOP. -/
theorem test_nop_keeps_everything :
    ends (boot 0x0600 [0xEA] [.flag .c true, .flag .z true, .flag .i true, .flag .d true, .flag .b true, .flag .u true,
      .flag .v true, .flag .n true, .a 0x01, .x 0x02, .y 0x03]) (fun t => t.pc == 0x0601 && t.cycles == 2 && t.flags ==
      ⟨true, true, true, true, true, true, true, true⟩ && t.a == 0x01 && t.x == 0x02 && t.y == 0x03) = true := by decide

/-- Section 2.9: NOP. -/
theorem test_nop_wraps_pc :
    ends (boot 0xFFFF [0xEA] []) (fun t => t.pc == 0x0000 && t.cycles == 2) = true := by decide

/-- Section 2.10: (byte 0x00, published BRK). -/
theorem test_byte_00_halts :
    ends (boot 0x0600 [0x00] []) (fun t => t.halted && t.faultAddr == 0x0600 && t.faultOp == 0x00) = true := by decide

/-- Section 2.10: (byte 0x80, undocumented). -/
theorem test_byte_80_halts :
    ends (boot 0x0600 [0x80, 0x00] []) (fun t => t.halted && t.faultAddr == 0x0600 && t.faultOp == 0x80) = true := by decide

/-! ### Runs and host requests -/

/-- Program P1's image (section 3.1). -/
def p1 : State :=
  boot 0x0600 [0x18, 0xA5, 0x10, 0x65, 0x12, 0x85, 0x14, 0xA5, 0x11, 0x65, 0x13, 0x85, 0x15]
    [.cell 0x0010 0xF0, .cell 0x0011 0x12, .cell 0x0012 0x20, .cell 0x0013 0x0E]

/-- Section 3.1's table: budget 3 runs two instructions, 5 cycles. -/
theorem test_execute_overshoots : returns (execute 3 p1) 5 (fun t => t.pc == 0x0603 && t.a == 0xF0 && t.flags.n) = true := by
  decide

/-- The same table: budget 0 runs nothing. -/
theorem test_execute_zero : returns (execute 0 p1) 0 (fun t => t.pc == 0x0600 && t.a == 0x00) = true := by decide

/-- Section 3.5: budget 2 ends before the byte 0x0A is fetched. -/
theorem test_execute_stops_before_fault :
    returns (execute 2 (boot 0x0600 [0xA9, 0x01, 0x0A, 0xEA] [])) 2 (fun t => !t.halted && t.pc == 0x0602) = true := by decide

/-- The same program: budget 3 reaches it, with A as the LDA left it. -/
theorem test_execute_faults :
    faults (execute 3 (boot 0x0600 [0xA9, 0x01, 0x0A, 0xEA] [])) 0x0602 0x0A (fun t => t.a == 0x01 && t.sp == 0xFD) = true := by
  decide

/-- Section 4, 4: NOP then INC $1234,X under `execute(3)` returns 9. -/
theorem test_execute_greatest_overshoot :
    returns (execute 3 (boot 0x0600 [0xEA, 0xFE, 0x34, 0x12] [])) 9 (fun t => byteAt t 0x1234 == 0x01) = true := by decide

/-- R208: the count is returned and not kept. -/
theorem test_execute_keeps_no_count : returns (execute 3 p1) 5 (fun t => t.cycles == 0) = true := by decide

/-- R231, section 3: `00 06` before the image loads it at 0x0600. -/
theorem test_load_program :
    (match loadProgram [0x00, 0x06, 0xA9, 0x01] State.reset with
      | .next t => t.pc == 0x0600 && byteAt t 0x0600 == 0xA9 && byteAt t 0x0601 == 0x01 && t.sp == 0xFD
      | _ => false) = true := by decide

/-- R230: a flag read through the port. -/
theorem test_host_read : hostRead (.flag .v) (boot 0x0600 [] [.flag .v true]) = 1 ∧ hostRead .sp State.reset = 0xFD := by
  decide

/-! ### Witnesses: for each statement with hypotheses, states and operands that meet them all together -/

/-- The halted core after the byte 0x00 at 0x0600. -/
def dead : State := { boot 0x0600 [] [] with halted := true, faultAddr := 0x0600, faultOp := 0x00 }

theorem witness_StepRunsDecodedInstruction : ∃ (s : State) (i : Instr) (rest : List Byte), s.Idle ∧
    decode [byteAt s s.pc, byteAt s (s.pc + 1), byteAt s (s.pc + 2)] = .ok (i, rest) :=
  ⟨boot 0xFFFE [0x4C, 0x34] [.cell 0x0000 0x12], .jmpAbs 0x1234, [], by decide, rfl⟩

theorem witness_EncodeOfDecodeIsTheBytes : ∃ (bytes : List Byte) (i : Instr) (rest : List Byte),
    decode bytes = .ok (i, rest) := ⟨[0xA9, 0x42, 0x00], .ldaImm 0x42, [0x00], rfl⟩

theorem witness_OpcodeByteAloneDecides :
    decodeAt 0xEA 0x11 0x22 = some .nop ∧ decodeAt 0xA9 0x11 0x22 = some (.ldaImm 0x11) ∧
    decodeAt 0x4C 0x11 0x22 = some (.jmpAbs 0x2211) := by decide

/-- The first and the last unrecognised byte; for the second, decoding refuses whatever follows. -/
theorem witness_UnrecognizedBytesAreThe127 :
    (0x00 : Byte) ∈ unrecognizedOpcodes ∧ (0xFF : Byte) ∈ unrecognizedOpcodes ∧ (0xFE : Byte) ∉ unrecognizedOpcodes ∧
    (0x01 : Byte) ∉ unrecognizedOpcodes := by decide

theorem witness_UnrecognizedOpcodeHalts : State.reset.Idle ∧ byteAt State.reset State.reset.pc ∈ unrecognizedOpcodes := by decide

theorem witness_HaltedCoreExecutesNothing : dead.halted = true := by decide

/-- A step that runs an instruction, one that halts. -/
theorem witness_StepKeepsTheInvariant :
    (boot 0x0600 [0x85, 0x10] [.a 0x55]).Inv ∧ (∃ t, step (boot 0x0600 [0x85, 0x10] [.a 0x55]) = .next t) ∧
    State.reset.Inv ∧ (∃ t, step State.reset = .next t ∧ t.halted = true) :=
  ⟨by decide, ⟨_, rfl⟩, by decide, ⟨_, rfl, rfl⟩⟩

theorem witness_RunsAndHostWritesKeepTheInvariant :
    State.reset.Inv ∧ (∃ t, execute 0 State.reset = .returned 0 t) ∧ (∃ t, execute 1 State.reset = .faulted 0xFFFC 0x00 t) ∧
    (∃ t, hostWrite (.cell 0xFFFF 0x01) State.reset = .next t) ∧ (∃ t, loadProgram [0xFF, 0xFF, 0xEA] State.reset = .next t) :=
  ⟨by decide, ⟨_, rfl⟩, ⟨_, rfl⟩, ⟨_, rfl⟩, ⟨_, rfl⟩⟩

theorem witness_CanonicalMemoriesAreExtensional :
    ∃ m₁ m₂ : Memory, Memory.wf m₁ ∧ Memory.wf m₂ ∧ (∀ a, a < 65536 → Memory.read m₁ a = Memory.read m₂ a) ∧ m₁ ≠ [] :=
  ⟨[(0, 1), (65535, 2)], Memory.write [(65535, 2)] 0 1, by decide, by decide, fun _ _ => rfl, by decide⟩

theorem witness_RewritingACellChangesNothing : Memory.wf (boot 0x0600 [0x85, 0x10] []).mem := by decide

theorem witness_PushesArePoppedInReverse : (List.replicate 256 (0x5A : Byte)).length ≤ 256 :=
  Nat.le_of_eq List.length_replicate

/-- The vector at 0x00FF, and an index that carries past the top of memory. -/
theorem witness_IndirectModesResolve :
    let s := boot 0x0600 [] [.cell 0x00FF 0xFF, .cell 0x0100 0xFF, .y 0x01]
    ∃ base, base = (byteAt s (BitVec.ofNat 16 ((0xFF : Byte).toNat + 1))).toNat * 256 +
        (byteAt s (BitVec.ofNat 16 (0xFF : Byte).toNat)).toNat ∧
      base = 65535 ∧ pageCrossed (.indirectY 0xFF) s = true := ⟨65535, by decide, rfl, by decide⟩

/-- Both outcomes of the page-cross rule at its boundary. -/
theorem witness_IndexedAbsoluteModesResolve :
    pageCrossed (.absoluteX 0x12FF) (boot 0x0600 [] [.x 0x00]) = false ∧
    pageCrossed (.absoluteX 0x12FF) (boot 0x0600 [] [.x 0x01]) = true ∧
    effectiveAddress (.absoluteY 0xFFFF) (boot 0x0600 [] [.y 0x01]) = 0x0000 ∧
    pageCrossed (.absoluteY 0xFFFF) (boot 0x0600 [] [.y 0x01]) = true := by decide

theorem witness_LoadsWriteTheirRegister :
    (readForm (.ldaIndY 0xFF) = some (0xB1, .memory (.indirectY 0xFF)) ∧ mnemonic (.ldaIndY 0xFF) = .lda) ∧
    (readForm (.ldxZpY 0xFF) = some (0xB6, .memory (.zeroPageY 0xFF)) ∧ mnemonic (.ldxZpY 0xFF) = .ldx) ∧
    (readForm (.ldyImm 0x00) = some (0xA0, .immediate 0x00) ∧ mnemonic (.ldyImm 0x00) = .ldy) := by decide

theorem witness_StoresWriteOneCell :
    (storeForm (.staAbsX 0xFFFF) = some (0x9D, .absoluteX 0xFFFF) ∧ mnemonic (.staAbsX 0xFFFF) = .sta) ∧
    (storeForm (.stxZpY 0xFF) = some (0x96, .zeroPageY 0xFF) ∧ mnemonic (.stxZpY 0xFF) = .stx) ∧
    (storeForm (.styAbs 0x0000) = some (0x8C, .absolute 0x0000) ∧ mnemonic (.styAbs 0x0000) = .sty) := by decide

/-- PLA with `SP` at 0xFF reads the slot 0x0100. -/
theorem witness_PhaAndPlaMoveTheAccumulator :
    ∃ v, v = byteAt (boot 0x0600 [] [.sp 0xFF, .cell 0x0100 0x80]) (stackAddress (0xFF + 1)) ∧ v = 0x80 :=
  ⟨0x80, by decide, rfl⟩

theorem witness_PlpPullsSixFlags :
    ∃ v, v = byteAt (boot 0x0600 [] [.sp 0xFF, .cell 0x0100 0xC3]) (stackAddress (0xFF + 1)) ∧ v = 0xC3 :=
  ⟨0xC3, by decide, rfl⟩

theorem witness_OpenParametersStayLocal :
    ([0x00, 0x10, 0x20, 0x30] : List Byte).map (fun forced => forced &&& 0xCF) = [0, 0, 0, 0] ∧
    (3 : Nat) ≠ 4 ∧ (3 : Nat) ≠ 5 ∧ (7 : Nat) ≠ 4 ∧ (0x01FC : Word) ≠ stackAddress 0xFD ∧ (0x0200 : Word) ≠ stackAddress 0xFF := by
  decide

theorem witness_LogicalWritesTheAccumulator :
    (readForm (.andIndX 0xFF) = some (0x21, .memory (.indirectX 0xFF)) ∧ mnemonic (.andIndX 0xFF) = .and) ∧
    (readForm (.oraImm 0x80) = some (0x09, .immediate 0x80) ∧ mnemonic (.oraImm 0x80) = .ora) ∧
    (readForm (.eorAbsY 0xFFFF) = some (0x59, .memory (.absoluteY 0xFFFF)) ∧ mnemonic (.eorAbsY 0xFFFF) = .eor) := by decide

theorem witness_BitTestsMemory :
    readForm (.bitZp 0xFF) = some (0x24, .memory (.zeroPage 0xFF)) ∧ mnemonic (.bitZp 0xFF) = .bit ∧
    readForm (.bitAbs 0xFFFF) = some (0x2C, .memory (.absolute 0xFFFF)) ∧ mnemonic (.bitAbs 0xFFFF) = .bit := by decide

/-- INC of 0xFF gives 0x00, DEC of 0x00 gives 0xFF. -/
theorem witness_IncAndDecModifyOneCell :
    (modifyForm (.incAbsX 0xFFFF) = some (0xFE, .absoluteX 0xFFFF) ∧ mnemonic (.incAbsX 0xFFFF) = .inc ∧
      (0x00 : Byte).toNat = ((byteAt (boot 0 [] [.cell 0xFFFF 0xFF])
        (effectiveAddress (.absoluteX 0xFFFF) (boot 0 [] [.cell 0xFFFF 0xFF]))).toNat + 1) % 256) ∧
    (modifyForm (.decZp 0x10) = some (0xC6, .zeroPage 0x10) ∧ mnemonic (.decZp 0x10) = .dec ∧
      (0xFF : Byte).toNat =
        ((byteAt State.reset (effectiveAddress (.zeroPage 0x10) State.reset)).toNat + 255) % 256) := by decide

/-- Each clause where it wraps. -/
theorem witness_RegisterStepsWrap :
    (0x00 : Byte).toNat = ((boot 0 [] [.x 0xFF]).x.toNat + 1) % 256 ∧
    (0x00 : Byte).toNat = ((boot 0 [] [.y 0xFF]).y.toNat + 1) % 256 ∧
    (0xFF : Byte).toNat = (State.reset.x.toNat + 255) % 256 ∧ (0xFF : Byte).toNat = (State.reset.y.toNat + 255) % 256 := by decide

/-- A pointer at 0xFFFF: its high byte lies at 0x0000. -/
theorem witness_JumpsSetPC :
    let s := boot 0x0600 [] [.cell 0xFFFF 0x34, .cell 0x0000 0x12]
    (0x1234 : Word).toNat = (byteAt s (0xFFFF + 1)).toNat * 256 + (byteAt s 0xFFFF).toNat := by decide

/-- The popped word 0xFFFF: execution goes on at 0x0000. -/
theorem witness_RtsReturnsPastThePoppedWord :
    let s := boot 0x0600 [] [.sp 0xFE, .cell 0x01FF 0xFF, .cell 0x0100 0xFF]
    (0x0000 : Word).toNat =
      ((byteAt s (stackAddress (s.sp + 2))).toNat * 256 + (byteAt s (stackAddress (s.sp + 1))).toNat + 1) % 65536 := by decide

/-- A branch at 0xFFFE, whose next instruction is at 0x0000. -/
theorem witness_BranchOperationMovesPC :
    (0x0000 : Word) = (boot 0xFFFE [] []).pc + 2 ∧ (branchIf true 0xFF (boot 0xFFFE [] [])).pc = 0xFFFF ∧
    (branchIf true 0xFF (boot 0xFFFE [] [])).cycles = 4 ∧ (branchIf true 0x7F (boot 0xFFFE [] [])).cycles = 3 := by decide

/-- Each branch with its flag set and clear. -/
theorem witness_BranchesTestTheirFlag :
    [Instr.beq 0x80, .bne 0x80, .bcs 0x80, .bcc 0x80, .bmi 0x80, .bpl 0x80, .bvs 0x80, .bvc 0x80].map
        (fun i => branchForm i Flags.cleared) =
      [some (0xF0, 0x80, false), some (0xD0, 0x80, true), some (0xB0, 0x80, false), some (0x90, 0x80, true),
        some (0x30, 0x80, false), some (0x10, 0x80, true), some (0x70, 0x80, false), some (0x50, 0x80, true)] ∧
    [Instr.beq 0x7F, .bne 0x7F, .bcs 0x7F, .bcc 0x7F, .bmi 0x7F, .bpl 0x7F, .bvs 0x7F, .bvc 0x7F].map
        (fun i => branchForm i ⟨true, true, true, true, true, true, true, true⟩) =
      [some (0xF0, 0x7F, true), some (0xD0, 0x7F, false), some (0xB0, 0x7F, true), some (0x90, 0x7F, false),
        some (0x30, 0x7F, true), some (0x10, 0x7F, false), some (0x70, 0x7F, true), some (0x50, 0x7F, false)] := by decide

/-- 0xFF and 0x00 with the carry in: the sum is 256, the result 0x00. -/
theorem witness_AdcAddsWithCarry :
    let s := boot 0x0600 [] [.a 0xFF, .flag .c true]
    readForm (.adcImm 0x00) = some (0x69, .immediate 0x00) ∧ mnemonic (.adcImm 0x00) = .adc ∧
    (0x00 : Byte) = operandValue (.immediate 0x00) s ∧ 256 = s.a.toNat + (0x00 : Byte).toNat + s.flags.c.toNat ∧
    (0x00 : Byte).toNat = 256 % 256 := by decide

/-- 0x00 less 0xFF less the borrow: the result is 0x00. -/
theorem witness_SbcSubtractsWithBorrow :
    let s := boot 0x0600 [] [.a 0x00]
    readForm (.sbcImm 0xFF) = some (0xE9, .immediate 0xFF) ∧ mnemonic (.sbcImm 0xFF) = .sbc ∧
    (0xFF : Byte) = operandValue (.immediate 0xFF) s ∧ 1 = 1 - s.flags.c.toNat ∧
    (0x00 : Byte).toNat = (s.a.toNat + 512 - (0xFF : Byte).toNat - 1) % 256 := by decide

/-- Sums and differences at and past both ends of the signed range, each with and without overflow. -/
theorem witness_OverflowIsSignedOverflow :
    ((128 : Int) = signed8 0x7F + signed8 0x00 + true.toNat ∧ (127 : Int) = signed8 0x7F - signed8 0x00 - (1 - true.toNat)) ∧
    addOverflow 0x7F 0x00 true = true ∧ addOverflow 0x7F (onesComplement 0x00) true = false ∧
    ((-128 : Int) = signed8 0x80 + signed8 0x00 + false.toNat ∧ (-129 : Int) = signed8 0x80 - signed8 0x00 - (1 - false.toNat)) ∧
    addOverflow 0x80 0x00 false = false ∧ addOverflow 0x80 (onesComplement 0x00) false = true := by decide

/-- Each compare, with the register equal, less and greater. -/
theorem witness_ComparesWriteThreeFlags :
    let s := boot 0x0600 [] [.a 0x40, .x 0x00, .y 0xFF]
    (readForm (.cmpImm 0x40) = some (0xC9, .immediate 0x40) ∧ mnemonic (.cmpImm 0x40) = .cmp ∧
      (0x40 : Byte) = operandValue (.immediate 0x40) s ∧ (0x00 : Byte).toNat = (s.a.toNat + 256 - (0x40 : Byte).toNat) % 256) ∧
    (readForm (.cpxImm 0xFF) = some (0xE0, .immediate 0xFF) ∧ mnemonic (.cpxImm 0xFF) = .cpx ∧
      (0xFF : Byte) = operandValue (.immediate 0xFF) s ∧ (0x01 : Byte).toNat = (s.x.toNat + 256 - (0xFF : Byte).toNat) % 256) ∧
    (readForm (.cpyImm 0x00) = some (0xC0, .immediate 0x00) ∧ mnemonic (.cpyImm 0x00) = .cpy ∧
      (0x00 : Byte) = operandValue (.immediate 0x00) s ∧ (0xFF : Byte).toNat = (s.y.toNat + 256 - (0x00 : Byte).toNat) % 256) := by
  decide

/-- Each flag changed by an instruction that may change it. -/
theorem witness_FlagsHaveOnlyTheirWriters :
    (∃ t, exec .sec State.reset = .next t ∧ t.flags.c ≠ State.reset.flags.c) ∧
    (∃ t, exec (.ldaImm 0x00) State.reset = .next t ∧ t.flags.z ≠ State.reset.flags.z) ∧
    (∃ t, exec (.ldaImm 0x80) State.reset = .next t ∧ t.flags.n ≠ State.reset.flags.n) ∧
    (∃ t, exec .sei State.reset = .next t ∧ t.flags.i ≠ State.reset.flags.i) ∧
    (∃ t, exec .sed State.reset = .next t ∧ t.flags.d ≠ State.reset.flags.d) ∧
    (∃ t, exec .clv (boot 0 [] [.flag .v true]) = .next t ∧ t.flags.v ≠ true) :=
  ⟨⟨_, rfl, by decide⟩, ⟨_, rfl, by decide⟩, ⟨_, rfl, by decide⟩, ⟨_, rfl, by decide⟩, ⟨_, rfl, by decide⟩,
    ⟨_, rfl, by decide⟩⟩

/-- Each register changed by an instruction that may change it. -/
theorem witness_RegistersHaveOnlyTheirWriters :
    (∃ t, exec (.ldaImm 0x01) State.reset = .next t ∧ t.a ≠ State.reset.a) ∧
    (∃ t, exec .tsx State.reset = .next t ∧ t.x ≠ State.reset.x) ∧
    (∃ t, exec .dey State.reset = .next t ∧ t.y ≠ State.reset.y) ∧
    (∃ t, exec .txs State.reset = .next t ∧ t.sp ≠ State.reset.sp) ∧
    (∃ t, exec (.bne 0x10) State.reset = .next t ∧ t.pc ≠ nextPC (.bne 0x10) State.reset) :=
  ⟨⟨_, rfl, by decide⟩, ⟨_, rfl, by decide⟩, ⟨_, rfl, by decide⟩, ⟨_, rfl, by decide⟩, ⟨_, rfl, by decide⟩⟩

/-- A store anywhere; a push at the bottom of the stack page. -/
theorem witness_MemoryHasOnlyItsWriters :
    (∃ t, exec (.incAbs 0xFFFF) State.reset = .next t ∧ byteAt t 0xFFFF ≠ byteAt State.reset 0xFFFF) ∧
    (∃ t, exec .php (boot 0 [] [.sp 0x00]) = .next t ∧ byteAt t 0x0100 ≠ byteAt (boot 0 [] [.sp 0x00]) 0x0100 ∧
      mnemonic .php ∈ [.pha, .php, .jsr]) :=
  ⟨⟨_, rfl, by decide⟩, ⟨_, rfl, by decide, by decide⟩⟩

theorem witness_StoredFlagsInfluenceNothing :
    (∃ t, exec (.adcImm 0x09) State.reset = .next t) ∧ mnemonic (.adcImm 0x09) ∉ [.php, .plp, .cld, .sed] ∧
    mnemonic (.adcImm 0x09) ∉ [.php, .plp, .cli, .sei] := ⟨⟨_, rfl⟩, by decide, by decide⟩

/-- A step of each kind: an instruction, the exception. -/
theorem witness_StepIgnoresTheCycleCount :
    (∃ t, step (boot 0x0600 [0xEA] []) = .next t ∧ t.halted = false) ∧ (∃ t, step State.reset = .next t ∧ t.halted = true) :=
  ⟨⟨_, rfl, rfl⟩, ⟨_, rfl, rfl⟩⟩

/-- Each storing instruction, at the address of the instruction after it. -/
theorem witness_StoreIsSeenByTheNextFetch :
    (storeForm (.staAbs 0x0603) = some (0x8D, .absolute 0x0603) ∧
      effectiveAddress (.absolute 0x0603) (boot 0x0600 [] [.a 0xEA]) = nextPC (.staAbs 0x0603) (boot 0x0600 [] [.a 0xEA]) ∧
      ∃ t, exec (.staAbs 0x0603) (boot 0x0600 [] [.a 0xEA]) = .next t) ∧
    (storeForm (.stxAbs 0x0000) = some (0x8E, .absolute 0x0000) ∧
      effectiveAddress (.absolute 0x0000) (boot 0xFFFD [] []) = nextPC (.stxAbs 0x0000) (boot 0xFFFD [] []) ∧
      ∃ t, exec (.stxAbs 0x0000) (boot 0xFFFD [] []) = .next t) ∧
    (storeForm (.styZp 0x02) = some (0x84, .zeroPage 0x02) ∧
      effectiveAddress (.zeroPage 0x02) (boot 0 [] []) = nextPC (.styZp 0x02) (boot 0 [] []) ∧
      ∃ t, exec (.styZp 0x02) (boot 0 [] []) = .next t) :=
  ⟨⟨by decide, by decide, _, rfl⟩, ⟨by decide, by decide, _, rfl⟩, by decide, by decide, _, rfl⟩

/-- The least and the greatest count over a budget. -/
theorem witness_RunUsesItsBudget :
    (boot 0x0600 [0xEA, 0xFE, 0x34, 0x12] []).Idle ∧
    (∃ t, execute 2 (boot 0x0600 [0xEA, 0xFE, 0x34, 0x12] []) = .returned 2 t) ∧
    (∃ t, execute 3 (boot 0x0600 [0xEA, 0xFE, 0x34, 0x12] []) = .returned 9 t) := ⟨by decide, ⟨_, rfl⟩, ⟨_, rfl⟩⟩

/-- Both ends of a run happen. -/
theorem witness_RunReturnsOrFaults :
    (∃ t, execute 0 State.reset = .returned 0 t) ∧ (∃ t, execute 1 State.reset = .faulted 0xFFFC 0x00 t) :=
  ⟨⟨_, rfl⟩, ⟨_, rfl⟩⟩

theorem witness_RunOfOneIsOneStep :
    (boot 0x0600 [0xA9, 0x42] []).Idle ∧ fetchInstr (boot 0x0600 [0xA9, 0x42] []) = some (.ldaImm 0x42) ∧
    ∃ t, exec (.ldaImm 0x42) { boot 0x0600 [0xA9, 0x42] [] with cycles := 0 } = .next t := ⟨by decide, by decide, _, rfl⟩

/-- Section 4, 2: 3 cycles of budget use 5, then 2 of budget use 3; and a second budget of 0. -/
theorem witness_RunsCompose : p1.Idle ∧
    (∃ t u, execute 3 p1 = .returned 5 t ∧ execute 2 t = .returned 3 u) ∧
    (∃ t u, execute 1 p1 = .returned 2 t ∧ execute 0 t = .returned 0 u) :=
  ⟨by decide, ⟨_, _, rfl, rfl⟩, ⟨_, _, rfl, rfl⟩⟩

theorem witness_HostWritesOneItem : State.reset.Idle ∧ dead.halted = true := by decide

/-- A body that ends at 0xFFFF, and one that ends one past it. -/
theorem witness_LoadProgramCopiesItsBody :
    State.reset.Idle ∧ (joinBytes 0xFF 0xFE).toNat + [(0xEA : Byte), 0xEA].length ≤ 65536 ∧
    65536 < (joinBytes 0xFF 0xFE).toNat + [(0xEA : Byte), 0xEA, 0xEA].length := by decide

end Sys2Proof.Tests
end

section
/-! What an instruction writes, as one table for each register, the flags and memory, and the one equation that ties the
tables to `exec` (R11 to R15, R20). -/

namespace Sys2Proof.Machine

/-- The mnemonics that write `PC` otherwise than by the fetch of their own bytes (R12). -/
abbrev pcWriters : List Mnemonic := [.beq, .bne, .bcs, .bcc, .bmi, .bpl, .bvs, .bvc, .jmp, .jsr, .rts]

/-- The byte an instruction takes from its operand, its memory cell or, where it has neither, the stack. -/
def inputByte (i : Instr) (s : State) : Byte :=
  match readForm i, modifyForm i with
  | some (_, o), _ => operandValue o s
  | none, some (_, m) => byteAt s (effectiveAddress m s)
  | none, none => byteAt s (stackAddress (s.sp + 1))

/-- `A` after a mnemonic whose input byte is `v` (R11). -/
def resultA (mn : Mnemonic) (v : Byte) (s : State) : Byte :=
  match mn with
  | .lda | .pla => v
  | .txa => s.x
  | .tya => s.y
  | .and => s.a &&& v
  | .ora => s.a ||| v
  | .eor => s.a ^^^ v
  | .adc => addResult s.a v s.flags.c
  | .sbc => addResult s.a (onesComplement v) s.flags.c
  | _ => s.a

/-- `X` after a mnemonic whose input byte is `v` (R11). -/
def resultX (mn : Mnemonic) (v : Byte) (s : State) : Byte :=
  match mn with
  | .ldx => v
  | .tax => s.a
  | .tsx => s.sp
  | .inx => s.x + 1
  | .dex => s.x - 1
  | _ => s.x

/-- `Y` after a mnemonic whose input byte is `v` (R11). -/
def resultY (mn : Mnemonic) (v : Byte) (s : State) : Byte :=
  match mn with
  | .ldy => v
  | .tay => s.a
  | .iny => s.y + 1
  | .dey => s.y - 1
  | _ => s.y

/-- `SP` after a mnemonic (R13). -/
def resultSP (mn : Mnemonic) (s : State) : Byte :=
  match mn with
  | .txs => s.x
  | .pha | .php => s.sp - 1
  | .pla | .plp => s.sp + 1
  | .jsr => s.sp - 1 - 1
  | .rts => s.sp + 1 + 1
  | _ => s.sp

/-- The flags after a mnemonic whose input byte is `v` (R15). -/
def resultFlags (mn : Mnemonic) (v : Byte) (s : State) : Flags :=
  match mn with
  | .lda | .ldx | .ldy | .pla => setZN v s.flags
  | .tax | .tay => setZN s.a s.flags
  | .txa => setZN s.x s.flags
  | .tya => setZN s.y s.flags
  | .tsx => setZN s.sp s.flags
  | .and => setZN (s.a &&& v) s.flags
  | .ora => setZN (s.a ||| v) s.flags
  | .eor => setZN (s.a ^^^ v) s.flags
  | .inc => setZN (v + 1) s.flags
  | .dec => setZN (v - 1) s.flags
  | .inx => setZN (s.x + 1) s.flags
  | .iny => setZN (s.y + 1) s.flags
  | .dex => setZN (s.x - 1) s.flags
  | .dey => setZN (s.y - 1) s.flags
  | .bit => bitFlags s.a v s.flags
  | .adc => addFlags s.a v s.flags
  | .sbc => addFlags s.a (onesComplement v) s.flags
  | .cmp => compareFlags s.a v s.flags
  | .cpx => compareFlags s.x v s.flags
  | .cpy => compareFlags s.y v s.flags
  | .clc => { s.flags with c := false }
  | .cld => { s.flags with d := false }
  | .cli => { s.flags with i := false }
  | .clv => { s.flags with v := false }
  | .sec => { s.flags with c := true }
  | .sed => { s.flags with d := true }
  | .sei => { s.flags with i := true }
  | .plp => unpackP Config.plpWritesBU v s.flags
  | _ => s.flags

/-- The cell a writing or read-modify-write instruction names (R64); no other instruction's is looked at. -/
def targetAddress (i : Instr) (s : State) : Word :=
  match storeForm i, modifyForm i with
  | some (_, m), _ => effectiveAddress m s
  | none, some (_, m) => effectiveAddress m s
  | none, none => stackAddress s.sp

/-- The cells a mnemonic writes and the bytes it writes there, in order; `ea` is its target and `v` its input byte (R20,
R40, R42). -/
def cellWrites (mn : Mnemonic) (ea : Word) (v : Byte) (s : State) : List (Word × Byte) :=
  match mn with
  | .sta => [(ea, s.a)]
  | .stx => [(ea, s.x)]
  | .sty => [(ea, s.y)]
  | .inc => [(ea, v + 1)]
  | .dec => [(ea, v - 1)]
  | .pha => [(stackAddress s.sp, s.a)]
  | .php => [(stackAddress s.sp, packP s.flags ||| Config.phpForcedBits)]
  | .jsr => [(stackAddress s.sp, hiByte (s.pc + 1 + 2 - 1)), (stackAddress (s.sp - 1), loByte (s.pc + 1 + 2 - 1))]
  | _ => []

/-- Memory after a list of cell writes, the first done first. -/
def writeCells : List (Word × Byte) → Memory → Memory
  | [], m => m
  | (a, v) :: ws, m => writeCells ws (Memory.write m a.toNat v)

/-- `PC` once the bytes of an instruction are fetched, the opcode first (R36, R51). -/
def pcAfterFetch (i : Instr) (s : State) : Word :=
  match instrLength i - 1 with
  | 0 => s.pc + 1
  | n + 1 => s.pc + 1 + BitVec.ofNat 16 (n + 1)

/-- The state an instruction leaves, read off the tables, with the `PC` and the cycle count it leaves. -/
def afterInstr (i : Instr) (p : Word) (n : Nat) (s : State) : State :=
  { s with
    a := resultA (mnemonic i) (inputByte i s) s
    x := resultX (mnemonic i) (inputByte i s) s
    y := resultY (mnemonic i) (inputByte i s) s
    sp := resultSP (mnemonic i) s
    flags := resultFlags (mnemonic i) (inputByte i s) s
    mem := writeCells (cellWrites (mnemonic i) (targetAddress i s) (inputByte i s) s) s.mem
    pc := p
    cycles := n }

theorem branchIf_eq_setPC (cond : Bool) (off : Byte) (s : State) :
    ∃ p n, branchIf cond off s = { s with pc := p, cycles := n } := by
  cases cond <;> exact ⟨_, _, rfl⟩

/-- Every instruction completes, writes what the tables say and nothing else but `PC` and the cycle count, and unless it is a
writer of `PC` it goes to the address after its own bytes. The new `PC` of those writers and the counts are left open. -/
theorem exec_eq_afterInstr (i : Instr) (s : State) :
    ∃ p n, exec i s = .next (afterInstr i p n s) ∧ (mnemonic i ∉ pcWriters → p = pcAfterFetch i s) := by
  cases i
  case beq off | bne off | bcs off | bcc off | bmi off | bpl off | bvs off | bvc off =>
    obtain ⟨p, n, e⟩ := branchIf_eq_setPC _ off s
    exact ⟨p, n, congrArg Host.Outcome.next e, fun h => absurd (by simp [mnemonic]) h⟩
  case jmpAbs w | jmpInd w | jsr w => exact ⟨_, _, rfl, fun h => absurd (by simp [mnemonic]) h⟩
  case rts => exact ⟨_, _, rfl, fun h => absurd (by decide) h⟩
  all_goals exact ⟨_, _, rfl, fun _ => rfl⟩

end Sys2Proof.Machine
end

section
/-! What the tables say of an instruction's next state: who writes which register, flag and cell. -/

namespace Sys2Proof.Machine

/-- The inversion of `exec`: the only next state it can answer. -/
theorem exec_inv {i : Instr} {s t : State} (h : exec i s = .next t) :
    ∃ p n, t = afterInstr i p n s ∧ (mnemonic i ∉ pcWriters → p = pcAfterFetch i s) := by
  obtain ⟨p, n, e, hp⟩ := exec_eq_afterInstr i s
  exact ⟨p, n, Host.Outcome.next.inj (h.symm.trans e), hp⟩

/-! Registers -/

theorem one_le_instrLength (i : Instr) : 1 ≤ instrLength i := by
  cases i <;> exact Nat.le_add_left 1 _

theorem pcAfterFetch_eq_nextPC (i : Instr) (s : State) : pcAfterFetch i s = nextPC i s := by
  obtain ⟨n, hn⟩ := Nat.exists_eq_add_of_le' (one_le_instrLength i)
  rw [pcAfterFetch, nextPC, hn]
  cases n with
  | zero => rfl
  | succ n =>
    rw [Nat.add_comm (n + 1) 1, BitVec.ofNat_add, ← BitVec.add_assoc, Nat.add_sub_cancel_left]
    rfl

theorem mem_writers_of_resultA_ne {mn : Mnemonic} {v : Byte} {s : State} (h : resultA mn v s ≠ s.a) :
    mn ∈ [.lda, .txa, .tya, .pla, .and, .ora, .eor, .adc, .sbc] := by
  revert h
  cases mn <;> simp [resultA]

theorem mem_writers_of_resultX_ne {mn : Mnemonic} {v : Byte} {s : State} (h : resultX mn v s ≠ s.x) :
    mn ∈ [.ldx, .tax, .tsx, .inx, .dex] := by
  revert h
  cases mn <;> simp [resultX]

theorem mem_writers_of_resultY_ne {mn : Mnemonic} {v : Byte} {s : State} (h : resultY mn v s ≠ s.y) :
    mn ∈ [.ldy, .tay, .iny, .dey] := by
  revert h
  cases mn <;> simp [resultY]

theorem mem_writers_of_resultSP_ne {mn : Mnemonic} {s : State} (h : resultSP mn s ≠ s.sp) :
    mn ∈ [.txs, .pha, .php, .pla, .plp, .jsr, .rts] := by
  revert h
  cases mn <;> simp [resultSP]

/-- Settles O50: each register's table names its writers, and `PC` follows the fetch of every other instruction. -/
theorem registersHaveOnlyTheirWriters : Obligations.RegistersHaveOnlyTheirWriters := by
  intro i s t h
  obtain ⟨p, n, rfl, hp⟩ := exec_inv h
  refine ⟨mem_writers_of_resultA_ne, mem_writers_of_resultX_ne, mem_writers_of_resultY_ne, mem_writers_of_resultSP_ne,
    fun hpc => ?_⟩
  by_contra hmn
  exact hpc ((hp hmn).trans (pcAfterFetch_eq_nextPC i s))

/-! Flags -/

@[simp] theorem setZN_frame (v : Byte) (f : Flags) :
    (setZN v f).c = f.c ∧ (setZN v f).i = f.i ∧ (setZN v f).d = f.d ∧ (setZN v f).b = f.b ∧ (setZN v f).u = f.u ∧
      (setZN v f).v = f.v :=
  ⟨rfl, rfl, rfl, rfl, rfl, rfl⟩

@[simp] theorem addFlags_frame (a m : Byte) (f : Flags) :
    (addFlags a m f).i = f.i ∧ (addFlags a m f).d = f.d ∧ (addFlags a m f).b = f.b ∧ (addFlags a m f).u = f.u :=
  ⟨rfl, rfl, rfl, rfl⟩

@[simp] theorem compareFlags_frame (r m : Byte) (f : Flags) :
    (compareFlags r m f).i = f.i ∧ (compareFlags r m f).d = f.d ∧ (compareFlags r m f).b = f.b ∧
      (compareFlags r m f).u = f.u ∧ (compareFlags r m f).v = f.v :=
  ⟨rfl, rfl, rfl, rfl, rfl⟩

@[simp] theorem bitFlags_frame (a m : Byte) (f : Flags) :
    (bitFlags a m f).c = f.c ∧ (bitFlags a m f).i = f.i ∧ (bitFlags a m f).d = f.d ∧ (bitFlags a m f).b = f.b ∧
      (bitFlags a m f).u = f.u :=
  ⟨rfl, rfl, rfl, rfl, rfl⟩

/-- PLP as decision D4 has it. -/
@[simp] theorem unpackP_config_frame (v : Byte) (f : Flags) :
    (unpackP Config.plpWritesBU v f).b = f.b ∧ (unpackP Config.plpWritesBU v f).u = f.u :=
  ⟨rfl, rfl⟩

theorem mem_writers_of_resultFlags_c_ne {mn : Mnemonic} {v : Byte} {s : State} (h : (resultFlags mn v s).c ≠ s.flags.c) :
    mn ∈ [.adc, .sbc, .cmp, .cpx, .cpy, .clc, .sec, .plp] := by
  revert h
  cases mn <;> simp [resultFlags]

theorem mem_writers_of_resultFlags_zn_ne {mn : Mnemonic} {v : Byte} {s : State}
    (h : (resultFlags mn v s).z ≠ s.flags.z ∨ (resultFlags mn v s).n ≠ s.flags.n) :
    mn ∈ [.lda, .ldx, .ldy, .tax, .tay, .txa, .tya, .tsx, .pla, .and, .ora, .eor, .bit, .inc, .dec, .inx, .iny, .dex,
      .dey, .adc, .sbc, .cmp, .cpx, .cpy, .plp] := by
  revert h
  cases mn <;> simp [resultFlags]

theorem mem_writers_of_resultFlags_i_ne {mn : Mnemonic} {v : Byte} {s : State} (h : (resultFlags mn v s).i ≠ s.flags.i) :
    mn ∈ [.sei, .cli, .plp] := by
  revert h
  cases mn <;> simp [resultFlags]

theorem mem_writers_of_resultFlags_d_ne {mn : Mnemonic} {v : Byte} {s : State} (h : (resultFlags mn v s).d ≠ s.flags.d) :
    mn ∈ [.sed, .cld, .plp] := by
  revert h
  cases mn <;> simp [resultFlags]

theorem mem_writers_of_resultFlags_v_ne {mn : Mnemonic} {v : Byte} {s : State} (h : (resultFlags mn v s).v ≠ s.flags.v) :
    mn ∈ [.adc, .sbc, .bit, .clv, .plp] := by
  revert h
  cases mn <;> simp [resultFlags]

theorem resultFlags_b_u (mn : Mnemonic) (v : Byte) (s : State) :
    (resultFlags mn v s).b = s.flags.b ∧ (resultFlags mn v s).u = s.flags.u := by
  cases mn <;> simp [resultFlags]

/-- Settles O49: the flag table names the writers of each flag, and none of `B` and `U`. -/
theorem flagsHaveOnlyTheirWriters : Obligations.FlagsHaveOnlyTheirWriters := by
  intro i s t h
  obtain ⟨p, n, rfl, -⟩ := exec_inv h
  exact ⟨mem_writers_of_resultFlags_c_ne, mem_writers_of_resultFlags_zn_ne, mem_writers_of_resultFlags_i_ne,
    mem_writers_of_resultFlags_d_ne, mem_writers_of_resultFlags_v_ne, resultFlags_b_u _ _ _⟩

/-- Settles O21: the model's `v == 0x00` and `v.msb` are the rule's zero test and bit 7. -/
theorem setZNWritesZeroAndNegative : Obligations.SetZNWritesZeroAndNegative := by
  intro v f
  rw [setZN_eq_flagsZN, flagsZN]
  simp only [← BitVec.toNat_inj]
  rfl

/-! Memory -/

theorem read_writeCells_of_forall_ne {ws : List (Word × Byte)} {q : Word} (h : ∀ w ∈ ws, w.1 ≠ q) (m : Memory) :
    Memory.read (writeCells ws m) q.toNat = Memory.read m q.toNat := by
  induction ws generalizing m with
  | nil => rfl
  | cons w ws ih =>
    obtain ⟨hw, hws⟩ := List.forall_mem_cons.mp h
    rw [writeCells, ih hws, Memory.read_write, if_neg fun e => hw (BitVec.eq_of_toNat_eq e.symm)]

theorem Memory.wf_writeCells (ws : List (Word × Byte)) {m : Memory} (h : Memory.wf m) : Memory.wf (writeCells ws m) := by
  induction ws generalizing m with
  | nil => exact h
  | cons w ws ih => exact ih (Memory.wf_write h w.1.isLt w.2)

theorem mem_writers_of_mem_cellWrites {mn : Mnemonic} {ea : Word} {v : Byte} {s : State} {w : Word × Byte}
    (h : w ∈ cellWrites mn ea v s) : mn ∈ [.sta, .stx, .sty, .pha, .php, .jsr, .inc, .dec] := by
  revert h
  cases mn <;> simp [cellWrites]

/-- A push and JSR write stack slots only (R40, R42). -/
theorem stackAddress_of_mem_cellWrites {mn : Mnemonic} {ea : Word} {v : Byte} {s : State} {w : Word × Byte}
    (hmn : mn ∈ [.pha, .php, .jsr]) (h : w ∈ cellWrites mn ea v s) : ∃ sp, w.1 = stackAddress sp := by
  simp only [List.mem_cons, List.not_mem_nil, or_false] at hmn
  obtain rfl | rfl | rfl := hmn <;> simp only [cellWrites, List.mem_cons, List.not_mem_nil, or_false] at h
  · exact ⟨s.sp, by rw [h]⟩
  · exact ⟨s.sp, by rw [h]⟩
  · obtain rfl | rfl := h
    · exact ⟨s.sp, rfl⟩
    · exact ⟨s.sp - 1, rfl⟩

theorem toNat_stackAddress_mem_page (sp : Byte) : 0x0100 ≤ (stackAddress sp).toNat ∧ (stackAddress sp).toNat ≤ 0x01FF := by
  have := sp.isLt
  rw [toNat_stackAddress]
  omega

/-- Settles O51: a byte that changed lies in a cell the write table lists. -/
theorem memoryHasOnlyItsWriters : Obligations.MemoryHasOnlyItsWriters := by
  intro i s t q h hq
  obtain ⟨p, n, rfl, -⟩ := exec_inv h
  obtain ⟨w, hw, rfl⟩ : ∃ w ∈ cellWrites (mnemonic i) (targetAddress i s) (inputByte i s) s, w.1 = q := by
    by_contra hne
    exact hq (read_writeCells_of_forall_ne (fun w hw e => hne ⟨w, hw, e⟩) s.mem)
  refine ⟨mem_writers_of_mem_cellWrites hw, fun hmn => ?_⟩
  obtain ⟨sp, e⟩ := stackAddress_of_mem_cellWrites hmn hw
  exact e ▸ toNat_stackAddress_mem_page sp

end Sys2Proof.Machine
end

section
/-! Canonical memories are extensional: the first address a canonical memory lists is the least that does not read as cleared,
so the first entries of two memories with the same cells agree, and then the rests have the same cells (R20). -/

namespace Sys2Proof.Machine

theorem Memory.wf_cons {c : Host.Cell} {m : Memory} :
    Memory.wf (c :: m) ↔ (∀ d ∈ m, c.1 < d.1) ∧ (c.2 ≠ Config.clearedByte ∧ c.1 < 65536) ∧ Memory.wf m := by
  simp only [Memory.wf, List.pairwise_cons, List.forall_mem_cons]
  tauto

theorem Memory.read_cons (c : Host.Cell) (m : Memory) (a : Nat) :
    Memory.read (c :: m) a = if c.1 = a then c.2 else Memory.read m a := rfl

theorem Memory.read_head_ne_cleared {c : Host.Cell} {m : Memory} (h : Memory.wf (c :: m)) :
    Memory.read (c :: m) c.1 ≠ Config.clearedByte := by
  rw [Memory.read_cons, if_pos rfl]
  exact (Memory.wf_cons.mp h).2.1.1

theorem Memory.read_tail_of_le_head {c : Host.Cell} {m : Memory} (h : Memory.wf (c :: m)) {a : Nat} (ha : a ≤ c.1) :
    Memory.read m a = Config.clearedByte :=
  Memory.read_of_forall_ne fun d hd => Nat.ne_of_gt (Nat.lt_of_le_of_lt ha ((Memory.wf_cons.mp h).1 d hd))

theorem Memory.head_le_of_read_ne_cleared {c : Host.Cell} {m : Memory} (h : Memory.wf (c :: m)) {a : Nat}
    (ha : Memory.read (c :: m) a ≠ Config.clearedByte) : c.1 ≤ a := by
  by_contra hlt
  have hlt := Nat.not_le.mp hlt
  rw [Memory.read_cons, if_neg (Nat.ne_of_gt hlt), Memory.read_tail_of_le_head h hlt.le] at ha
  exact ha rfl

/-- A canonical memory lists no address at or above 65536, so reads below it tell all of its cells. -/
theorem Memory.eq_of_read_eq {m₁ m₂ : Memory} (h₁ : Memory.wf m₁) (h₂ : Memory.wf m₂)
    (h : ∀ a, a < 65536 → Memory.read m₁ a = Memory.read m₂ a) : m₁ = m₂ := by
  induction m₁ generalizing m₂ with
  | nil =>
    cases m₂ with
    | nil => rfl
    | cons d r₂ =>
      obtain ⟨-, ⟨-, hd⟩, -⟩ := Memory.wf_cons.mp h₂
      exact absurd (h d.1 hd).symm (Memory.read_head_ne_cleared h₂)
  | cons c r₁ ih =>
    obtain ⟨-, ⟨-, hc⟩, hr₁⟩ := Memory.wf_cons.mp h₁
    cases m₂ with
    | nil => exact absurd (h c.1 hc) (Memory.read_head_ne_cleared h₁)
    | cons d r₂ =>
      obtain ⟨-, ⟨-, hd⟩, hr₂⟩ := Memory.wf_cons.mp h₂
      have haddr : c.1 = d.1 := Nat.le_antisymm
        (Memory.head_le_of_read_ne_cleared h₁ (h d.1 hd ▸ Memory.read_head_ne_cleared h₂))
        (Memory.head_le_of_read_ne_cleared h₂ (h c.1 hc ▸ Memory.read_head_ne_cleared h₁))
      have hbyte : c.2 = d.2 := by simpa [Memory.read_cons, haddr] using h c.1 hc
      have hrest : r₁ = r₂ := ih hr₁ hr₂ fun a ha => by
        by_cases hca : c.1 = a
        · rw [Memory.read_tail_of_le_head h₁ hca.ge, Memory.read_tail_of_le_head h₂ (haddr ▸ hca.ge)]
        · simpa [Memory.read_cons, hca, haddr ▸ hca] using h a ha
      rw [Prod.ext haddr hbyte, hrest]

/-- Settles O13. -/
theorem canonicalMemoriesAreExtensional : Obligations.CanonicalMemoriesAreExtensional :=
  fun _ _ => Memory.eq_of_read_eq

end Sys2Proof.Machine
end

section
/-! The invariant holds at reset and is kept by every step, run and host write (R20, R65, R200, R225, R230, R231). -/

namespace Sys2Proof.Machine

/-! Reset and the step -/

theorem resetTo_inv (vector : Word) : (State.resetTo vector).Inv :=
  ⟨Memory.wf_nil, fun h => absurd h Bool.false_ne_true⟩

/-- Settles O10. -/
theorem resetHasTheInvariant : Obligations.ResetHasTheInvariant :=
  ⟨resetTo_inv _, resetTo_inv⟩

/-- The opcode byte alone decides whether bytes are an instruction (R51); its operand bytes can be taken as 0. -/
theorem decodeAt_zero_eq_none {op b1 b2 : Byte} (h : decodeAt op b1 b2 = none) : decodeAt op 0 0 = none := by
  unfold decodeAt at h ⊢
  split at h <;> cases h
  rfl

theorem mem_unrecognizedOpcodes_of_decodeAt_zero :
    ∀ op : Byte, decodeAt op 0 0 = none → op ∈ unrecognizedOpcodes := by decide

theorem mem_unrecognizedOpcodes_of_fetchInstr {s : State} (h : fetchInstr s = none) :
    byteAt s s.pc ∈ unrecognizedOpcodes :=
  mem_unrecognizedOpcodes_of_decodeAt_zero _ (decodeAt_zero_eq_none h)

theorem decodeFault_keeps_inv {s : State} (h : s.Inv) (hf : fetchInstr s = none) : (decodeFault s).Inv :=
  ⟨h.1, fun _ => mem_unrecognizedOpcodes_of_fetchInstr hf⟩

/-- An instruction's cell writes keep the canonical form, and it leaves the halt latch and the fault record alone. -/
theorem exec_keeps_inv {i : Instr} {s t : State} (h : s.Inv) (ht : exec i s = .next t) : t.Inv := by
  obtain ⟨p, n, rfl, -⟩ := exec_inv ht
  exact ⟨Memory.wf_writeCells _ h.1, h.2⟩

theorem step_keeps_inv {s t : State} (h : s.Inv) (ht : step s = .next t) : t.Inv := by
  obtain ⟨-, e⟩ | ⟨-, i, -, e⟩ | ⟨-, hf, e⟩ := step_cases s
  · cases e.symm.trans ht
  · exact exec_keeps_inv h (e.symm.trans ht)
  · cases e.symm.trans ht
    exact decodeFault_keeps_inv h hf

/-- Settles O11, by the three kinds of step. -/
theorem stepKeepsTheInvariant : Obligations.StepKeepsTheInvariant :=
  fun _ _ => step_keeps_inv

/-! Runs -/

/-- The state a run ends in, if it ends in one, has the invariant. -/
def RunResult.Inv (r : RunResult) : Prop :=
  match r with
  | .returned _ s => s.Inv
  | .faulted _ _ s => s.Inv
  | .refused _ => True

theorem runLoop_inv (budget fuel : Nat) {s : State} (h : s.Inv) : (runLoop budget fuel s).Inv := by
  induction fuel generalizing s with
  | zero => exact h
  | succ fuel ih =>
    unfold runLoop
    split
    · split
      · next t hs =>
        have ht := step_keeps_inv h hs
        split
        · exact ht
        · exact ih ht
      · exact h
      · trivial
    · exact h

theorem endRun_inv {r : RunResult} (h : r.Inv) : (endRun r).Inv := by
  cases r <;> exact h

theorem execute_inv (budget : Nat) {s : State} (h : s.Inv) : (execute budget s).Inv := by
  cases hh : s.halted
  · rw [execute_idle hh]
    exact endRun_inv (runLoop_inv budget budget h)
  · rw [execute_halted hh]
    exact h

/-! Host writes -/

theorem applyHostWrite_keeps_inv (req : HostWrite) {s : State} (h : s.Inv) : (applyHostWrite req s).Inv := by
  cases req with
  | cell addr v => exact ⟨Memory.wf_write h.1 addr.isLt v, h.2⟩
  | _ => exact h

theorem hostWrite_keeps_inv {req : HostWrite} {s t : State} (h : s.Inv) (ht : hostWrite req s = .next t) : t.Inv := by
  unfold hostWrite at ht
  split at ht <;> cases ht
  exact applyHostWrite_keeps_inv req h

/-- The image a load accepts ends inside the 65536-cell space, so each of its bytes goes to a cell of it. -/
theorem loadProgram_keeps_inv {bytes : List Byte} {s t : State} (h : s.Inv) (ht : loadProgram bytes s = .next t) :
    t.Inv := by
  unfold loadProgram at ht
  split at ht
  · cases ht
  · split at ht
    · split at ht <;> cases ht
      next hfits =>
      have hend := of_decide_eq_true hfits
      exact ⟨Memory.wf_writeList h.1 _ (by rwa [List.length_drop]), h.2⟩
    · cases ht

/-- Settles O12, by induction on the loop's iterations for runs and by the request for the host's writes. -/
theorem runsAndHostWritesKeepTheInvariant : Obligations.RunsAndHostWritesKeepTheInvariant := by
  intro s h
  refine ⟨fun budget used t e => ?_, fun budget addr op t e => ?_, fun _ _ => hostWrite_keeps_inv h,
    fun _ _ => loadProgram_keeps_inv h⟩
  · have ht := execute_inv budget h
    rwa [e] at ht
  · have ht := execute_inv budget h
    rwa [e] at ht

end Sys2Proof.Machine
end

section
/-! Byte and word access: what a write leaves in every cell, where a fetch leaves `PC` (R30 to R38). -/

namespace Sys2Proof.Machine

/-! Bytes -/

theorem byteAt_memWrite (a : Word) (v : Byte) (s : State) (q : Word) :
    byteAt (memWrite a v s) q = if q = a then v else byteAt s q :=
  byteAt_write s _ a v rfl q

/-- Settles O14. -/
theorem memReadSeesMemWrite : Obligations.MemReadSeesMemWrite :=
  fun s a q v => ⟨memRead_eq q s, byteAt_memWrite a v s q, rfl⟩

/-- The rewritten memory has the same cells, and canonical memories with the same cells are the same list. -/
theorem Memory.write_read_self {m : Memory} (h : Memory.wf m) {a : Nat} (ha : a < 65536) :
    Memory.write m a (Memory.read m a) = m := by
  refine Memory.eq_of_read_eq (Memory.wf_write h ha _) h fun q _ => ?_
  rw [Memory.read_write]
  split
  · next hq => rw [hq]
  · rfl

/-- Settles O15. -/
theorem rewritingACellChangesNothing : Obligations.RewritingACellChangesNothing := by
  intro s a h
  rw [memWrite_eq, byteAt, Memory.write_read_self h a.isLt]

/-! Words -/

theorem loByte_eq_ofNat (w : Word) : loByte w = BitVec.ofNat 8 (w.toNat % 256) := by
  rw [← toNat_loByte, BitVec.ofNat_toNat, BitVec.setWidth_eq]

theorem hiByte_eq_ofNat (w : Word) : hiByte w = BitVec.ofNat 8 (w.toNat / 256) := by
  rw [← toNat_hiByte, BitVec.ofNat_toNat, BitVec.setWidth_eq]

theorem toNat_wordAt (s : State) (a : Word) :
    (wordAt s a).toNat = (byteAt s (a + 1)).toNat * 256 + (byteAt s a).toNat :=
  toNat_joinBytes _ _

/-- The high byte is written last, at `a + 1`, which is not `a` at any address. -/
theorem byteAt_writeWord (a w : Word) (s : State) (q : Word) :
    byteAt (writeWord a w s) q = if q = a then loByte w else if q = a + 1 then hiByte w else byteAt s q := by
  have hne : a ≠ a + 1 := by simp
  simp only [writeWord, byteAt_memWrite]
  by_cases hq : q = a
  · rw [hq, if_neg hne, if_pos rfl, if_pos rfl]
  · rw [if_neg hq, if_neg hq]

theorem wordAt_writeWord (a w : Word) (s : State) : wordAt (writeWord a w s) a = w := by
  simp [wordAt, byteAt_writeWord]

/-- Settles O16. -/
theorem readWordSeesWriteWord : Obligations.ReadWordSeesWriteWord := by
  intro s a w
  refine ⟨toNat_wordAt s a, rfl, fun q => ?_, rfl, wordAt_writeWord a w s⟩
  rw [byteAt_writeWord, loByte_eq_ofNat, hiByte_eq_ofNat]

/-! Fetches -/

/-- Settles O17. -/
theorem fetchesAdvancePC : Obligations.FetchesAdvancePC := by
  intro s a
  refine ⟨⟨rfl, ?_, rfl⟩, ⟨toNat_wordAt s s.pc, ?_, rfl⟩, rfl, rfl, rfl, rfl⟩
  · exact BitVec.toNat_add s.pc 1
  · rw [fetchWord_eq]
    bv_omega

end Sys2Proof.Machine
end

section
/-! The stack: what pushes leave in every slot, and the pops that answer them (R40 to R43). -/

namespace Sys2Proof.Machine

/-! One byte -/

theorem stackAddress_eq_ofNat (sp : Byte) : stackAddress sp = BitVec.ofNat 16 (256 + sp.toNat) := by
  rw [← toNat_stackAddress, BitVec.ofNat_toNat, BitVec.setWidth_eq]

theorem eq_stackAddress_iff (q : Word) (sp : Byte) : q = stackAddress sp ↔ q.toNat = 256 + sp.toNat := by
  rw [← toNat_stackAddress, BitVec.toNat_inj]

@[simp] theorem pushByte_sp (v : Byte) (s : State) : (pushByte v s).sp = s.sp - 1 := rfl

theorem byteAt_pushByte (v : Byte) (s : State) (q : Word) :
    byteAt (pushByte v s) q = if q = stackAddress s.sp then v else byteAt s q :=
  byteAt_write s _ _ v rfl q

/-- Settles O18. -/
theorem pushAndPopMoveSP : Obligations.PushAndPopMoveSP := by
  intro s v
  refine ⟨⟨fun q => ?_, ?_, rfl⟩, ?_, BitVec.toNat_add s.sp 1, rfl⟩
  · simp only [byteAt_pushByte, eq_stackAddress_iff]
  · rw [pushByte_sp, BitVec.toNat_sub, Nat.add_comm]
    rfl
  · rw [← stackAddress_eq_ofNat]
    rfl

/-! One word -/

theorem byteAt_pushWord (w : Word) (s : State) (q : Word) :
    byteAt (pushWord w s) q =
      if q = stackAddress (s.sp - 1) then loByte w else if q = stackAddress s.sp then hiByte w else byteAt s q := by
  simp only [pushWord, byteAt_pushByte, pushByte_sp]

theorem byteAt_pushWord_hi (w : Word) (s : State) : byteAt (pushWord w s) (stackAddress s.sp) = hiByte w := by
  have hne : s.sp ≠ s.sp - 1 := by bv_omega
  rw [byteAt_pushWord, if_neg (mt stackAddress_inj.mp hne), if_pos rfl]

theorem byteAt_pushWord_lo (w : Word) (s : State) : byteAt (pushWord w s) (stackAddress (s.sp - 1)) = loByte w := by
  rw [byteAt_pushWord, if_pos rfl]

theorem popWord_pushWord (w : Word) (s : State) :
    popWord (pushWord w s) = (w, { s with mem := (pushWord w s).mem, cycles := s.cycles + 4 }) := by
  have hsp : (pushWord w s).sp = s.sp - 1 - 1 := rfl
  rw [popWord_eq, hsp, BitVec.sub_add_cancel, BitVec.sub_add_cancel, byteAt_pushWord_hi, byteAt_pushWord_lo,
    joinBytes_hiByte_loByte]
  rfl

/-- Settles O19. -/
theorem poppedWordIsPushedWord : Obligations.PoppedWordIsPushedWord := by
  intro s w
  rw [← hiByte_eq_ofNat, ← loByte_eq_ofNat, popWord_pushWord]
  exact ⟨byteAt_pushWord_hi w s, byteAt_pushWord_lo w s, rfl, rfl⟩

/-! Many bytes -/

theorem popByte_value (s : State) : (popByte s).1 = byteAt s (stackAddress (s.sp + 1)) := rfl

theorem pushAll_sp (vs : List Byte) (s : State) : (pushAll vs s).sp = s.sp - BitVec.ofNat 8 vs.length := by
  induction vs generalizing s with
  | nil => exact (BitVec.sub_zero s.sp).symm
  | cons v vs ih =>
    rw [pushAll, ih, pushByte_sp, List.length_cons, BitVec.ofNat_add]
    bv_omega

theorem popMany_sp (n : Nat) (s : State) : (popMany n s).2.sp = s.sp + BitVec.ofNat 8 n := by
  induction n generalizing s with
  | zero => exact (BitVec.add_zero s.sp).symm
  | succ n ih =>
    rw [popMany, ih, popByte_eq, BitVec.ofNat_add]
    bv_omega

theorem popMany_mem (n : Nat) (s : State) : (popMany n s).2.mem = s.mem := by
  induction n generalizing s with
  | zero => rfl
  | succ n ih => exact ih _

/-- As many pops as there were pushes bring `SP` back, however many there were. -/
theorem popMany_pushAll_sp (vs : List Byte) (s : State) : (popMany vs.length (pushAll vs s)).2.sp = s.sp := by
  rw [popMany_sp, pushAll_sp, BitVec.sub_add_cancel]

/-- The last of `n + 1` pops, where the definition takes the first apart. -/
theorem popMany_succ_bytes (n : Nat) (s : State) :
    (popMany (n + 1) s).1 = (popMany n s).1 ++ [(popByte (popMany n s).2).1] := by
  induction n generalizing s with
  | zero => rfl
  | succ n ih =>
    rw [popMany, ih]
    rfl

/-- A stack slot that `d` pushes do not reach, `SP` being `d` above it modulo 256, keeps its byte through as many pushes. -/
theorem byteAt_pushAll_of_length_le {vs : List Byte} {s : State} {p : Byte} (h : vs.length ≤ (s.sp - p).toNat) :
    byteAt (pushAll vs s) (stackAddress p) = byteAt s (stackAddress p) := by
  induction vs generalizing s with
  | nil => rfl
  | cons v vs ih =>
    rw [List.length_cons] at h
    have hne : p ≠ s.sp := by bv_omega
    have hvs : vs.length ≤ ((pushByte v s).sp - p).toNat := by
      rw [pushByte_sp]
      bv_omega
    rw [pushAll, ih hvs, byteAt_pushByte, if_neg (mt stackAddress_inj.mp hne)]

/-- The byte pushed first is still in its slot after up to 255 more pushes. -/
theorem byteAt_pushAll_pushByte (v : Byte) {vs : List Byte} (s : State) (h : vs.length ≤ 255) :
    byteAt (pushAll vs (pushByte v s)) (stackAddress s.sp) = v := by
  have hfar : vs.length ≤ ((pushByte v s).sp - s.sp).toNat := by
    rw [pushByte_sp]
    bv_omega
  rw [byteAt_pushAll_of_length_le hfar, byteAt_pushByte, if_pos rfl]

/-- The last pop answers the first push, and the pops before it answer the pushes after it. -/
theorem popMany_pushAll_bytes {vs : List Byte} (s : State) (h : vs.length ≤ 256) :
    (popMany vs.length (pushAll vs s)).1 = vs.reverse := by
  induction vs generalizing s with
  | nil => rfl
  | cons v vs ih =>
    rw [List.length_cons] at h
    have hlast : (popByte (popMany vs.length (pushAll vs (pushByte v s))).2).1 = v := by
      rw [popByte_value, popMany_pushAll_sp, pushByte_sp, BitVec.sub_add_cancel, byteAt_congr (popMany_mem _ _),
        byteAt_pushAll_pushByte v s (by omega)]
    rw [List.length_cons, pushAll, popMany_succ_bytes, ih _ (by omega), hlast, List.reverse_cons]

/-- Settles O20, by induction on the list of bytes. -/
theorem pushesArePoppedInReverse : Obligations.PushesArePoppedInReverse :=
  fun vs s h => ⟨popMany_pushAll_bytes s h, popMany_pushAll_sp vs s⟩

end Sys2Proof.Machine
end

section
/-! A store and the fetch after it (R46, R103 to R105). -/

namespace Sys2Proof.Machine

/-- `v` is the byte of the register that a writing mnemonic stores (R103 to R105). -/
abbrev IsStoredByte (mn : Mnemonic) (s : State) (v : Byte) : Prop :=
  mn = .sta ∧ v = s.a ∨ mn = .stx ∧ v = s.x ∨ mn = .sty ∧ v = s.y

theorem targetAddress_of_storeForm {i : Instr} {opc : Byte} {m : AddrMode} (h : storeForm i = some (opc, m)) (s : State) :
    targetAddress i s = effectiveAddress m s := by
  simp only [targetAddress, h]

theorem mnemonic_of_storeForm {i : Instr} {opc : Byte} {m : AddrMode} (h : storeForm i = some (opc, m)) :
    mnemonic i = .sta ∨ mnemonic i = .stx ∨ mnemonic i = .sty := by
  cases i <;> simp [storeForm] at h <;> simp [mnemonic]

theorem cellWrites_of_storeForm {i : Instr} {opc : Byte} {m : AddrMode} (h : storeForm i = some (opc, m)) (s : State) :
    ∃ v, IsStoredByte (mnemonic i) s v ∧
      cellWrites (mnemonic i) (targetAddress i s) (inputByte i s) s = [(effectiveAddress m s, v)] := by
  rw [targetAddress_of_storeForm h]
  obtain hm | hm | hm := mnemonic_of_storeForm h <;> rw [hm]
  · exact ⟨s.a, .inl ⟨rfl, rfl⟩, rfl⟩
  · exact ⟨s.x, .inr (.inl ⟨rfl, rfl⟩), rfl⟩
  · exact ⟨s.y, .inr (.inr ⟨rfl, rfl⟩), rfl⟩

theorem exec_mem_pc_of_storeForm {i : Instr} {opc : Byte} {m : AddrMode} {s t : State} (h : storeForm i = some (opc, m))
    (ht : exec i s = .next t) :
    ∃ v, IsStoredByte (mnemonic i) s v ∧
      t.mem = Memory.write s.mem (effectiveAddress m s).toNat v ∧ t.pc = nextPC i s := by
  obtain ⟨p, n, rfl, hp⟩ := exec_inv ht
  obtain ⟨v, hv, hw⟩ := cellWrites_of_storeForm h s
  refine ⟨v, hv, ?_, ?_⟩
  · simp only [afterInstr, hw, writeCells]
  · have hpc : mnemonic i ∉ pcWriters := by
      obtain hm | hm | hm := mnemonic_of_storeForm h <;> rw [hm] <;> decide
    exact (hp hpc).trans (pcAfterFetch_eq_nextPC i s)

/-- Where memory is `s`'s with the byte `v` written at `PC`, the fetched opcode is `v` and the bytes after it are `s`'s. -/
theorem fetchInstr_of_mem_eq_write {s t : State} {v : Byte} (h : t.mem = Memory.write s.mem t.pc.toNat v) :
    fetchInstr t = decodeAt v (byteAt s (t.pc + 1)) (byteAt s (t.pc + 2)) := by
  have h1 : t.pc + 1 ≠ t.pc := by simp
  have h2 : t.pc + 2 ≠ t.pc := by simp
  simp only [fetchInstr, byteAt_write s t t.pc v h, if_true, if_neg h1, if_neg h2]

/-- Settles O54. -/
theorem storeIsSeenByTheNextFetch : Obligations.StoreIsSeenByTheNextFetch := by
  intro i opc m s t h hea ht
  obtain ⟨v, hv, hmem, hpc⟩ := exec_mem_pc_of_storeForm h ht
  rw [hea, ← hpc] at hmem
  exact ⟨v, hv, fetchInstr_of_mem_eq_write hmem⟩

end Sys2Proof.Machine
end

section
/-! The opcode map and the encoder (R50, R51, R60, R65, R66): each instruction's bytes decode to it, and the opcode byte alone
fixes operation and length. -/

namespace Sys2Proof.Machine

/-! From an instruction to its bytes -/

/-- An instruction's opcode byte and operand bytes are decoded to it whatever follows them. A word operand is put back from its
two bytes; every other operand is one of the bytes, or there is none. -/
theorem exists_encode_eq_cons (i : Instr) :
    ∃ op operand, encode i = op :: operand ∧
      ∀ rest : List Byte, decodeAt op ((operand ++ rest).getD 0 0) ((operand ++ rest).getD 1 0) = some i := by
  cases i
  case ldaAbs w | ldaAbsX w | ldaAbsY w | ldxAbs w | ldxAbsY w | ldyAbs w | ldyAbsX w | staAbs w | staAbsX w | staAbsY w
      | stxAbs w | styAbs w | andAbs w | andAbsX w | andAbsY w | oraAbs w | oraAbsX w | oraAbsY w | eorAbs w | eorAbsX w
      | eorAbsY w | bitAbs w | incAbs w | incAbsX w | decAbs w | decAbsX w | jmpAbs w | jmpInd w | jsr w | adcAbs w
      | adcAbsX w | adcAbsY w | sbcAbs w | sbcAbsX w | sbcAbsY w | cmpAbs w | cmpAbsX w | cmpAbsY w | cpxAbs w | cpyAbs w =>
    exact ⟨_, _, rfl, fun _ => decodeAt_word w fun _ _ => rfl⟩
  all_goals exact ⟨_, _, rfl, fun _ => rfl⟩

/-- Settles O3, from the opcode map on the instruction's bytes; what the decoder drops is as long as the operand. -/
theorem decodeOfEncodeIsIdentity : Obligations.DecodeOfEncodeIsIdentity := by
  intro i rest
  obtain ⟨op, operand, he, hd⟩ := exists_encode_eq_cons i
  have hlen : instrLength i = operand.length + 1 := congrArg List.length he
  rw [he, List.cons_append, decode_of_decodeAt (hd rest) (by simp [hlen])]
  simp [hlen]

/-- Settles O2: nine of the words are encodings, so O3 decodes them; the others are refused by evaluation. -/
theorem tableWordsDecode : Obligations.TableWordsDecode :=
  have h := decodeOfEncodeIsIdentity
  ⟨h (.ldaAbsX 0x4480) [0xEA], h .txs [], h .plp [0xFF], h (.bitZp 0x10) [], h (.incAbsX 0x12F0) [], h (.jmpInd 0x0120) [],
    h (.bne 0xFC) [], h (.sbcIndY 0x30) [], h .cld [], rfl, rfl⟩

/-! From bytes to an instruction -/

/-- The inversion of the opcode map: an opcode byte that decodes with some operand bytes decodes with all, to an instruction of
the same mnemonic whose bytes are the first of those read, as many as before. -/
theorem decodeAt_inv {op b1 b2 : Byte} {i : Instr} (h : decodeAt op b1 b2 = some i) (c1 c2 : Byte) :
    ∃ j, decodeAt op c1 c2 = some j ∧ encode j = [op, c1, c2].take (instrLength i) ∧ mnemonic j = mnemonic i := by
  unfold decodeAt at h
  split at h <;> cases h
  all_goals
    next hop =>
    obtain ⟨-, rfl⟩ := BitVec.toNat_eq_nat.mp hop
    refine ⟨_, rfl, ?_, rfl⟩
    simp [encode, instrLength]

theorem instrLength_le_three (i : Instr) : instrLength i ≤ 3 := by
  cases i <;> exact Nat.le_of_ble_eq_true rfl

/-- The first `n` bytes after the opcode, of a list that has them, are the first `n` of the two the decoder looks at. -/
theorem take_getD_pair {tl : List Byte} {n : Nat} (hn : n ≤ 2) (hl : n ≤ tl.length) :
    [tl.getD 0 0, tl.getD 1 0].take n = tl.take n := by
  match tl with
  | [] => simp_all
  | [b] => interval_cases n <;> simp_all
  | b :: c :: tl => interval_cases n <;> simp

/-- Settles O4: the encoding is the opcode byte and the operand bytes the decoder looked at, and the rest is what it dropped. -/
theorem encodeOfDecodeIsTheBytes : Obligations.EncodeOfDecodeIsTheBytes := by
  intro bytes i rest h
  obtain ⟨op, tl, rfl, hd, hl, rfl⟩ := decode_inv h
  obtain ⟨j, hj, he, -⟩ := decodeAt_inv hd (tl.getD 0 0) (tl.getD 1 0)
  obtain rfl : i = j := Option.some.inj (hd.symm.trans hj)
  obtain ⟨n, hn⟩ := Nat.exists_eq_add_of_le' (one_le_instrLength i)
  have h3 := instrLength_le_three i
  rw [hn] at he hl h3 ⊢
  rw [he, List.take_succ_cons, take_getD_pair (by omega) (by omega), List.cons_append, Nat.add_sub_cancel,
    List.take_append_drop]

/-- Settles O6: the bytes of both instructions are the first of three bytes, as many for the one as for the other. -/
theorem opcodeByteAloneDecides : Obligations.OpcodeByteAloneDecides := by
  intro op b1 b2 c1 c2 i h
  obtain ⟨j, hj, he, hm⟩ := decodeAt_inv h c1 c2
  have h3 := instrLength_le_three i
  refine ⟨one_le_instrLength i, h3, j, hj, ?_, hm⟩
  rw [instrLength, he, List.length_take]
  exact Nat.min_eq_left h3

/-! The unrecognised bytes -/

theorem decode_eq_unrecognized_iff {op : Byte} {rest : List Byte} :
    decode (op :: rest) = .error (.unrecognized op) ↔ decodeAt op (rest.getD 0 0) (rest.getD 1 0) = none := by
  simp only [decode]
  cases decodeAt op (rest.getD 0 0) (rest.getD 1 0) with
  | none => simp
  | some i =>
    dsimp only
    split <;> simp

/-- R51: whether an opcode byte is in the map does not depend on the bytes after it. -/
theorem decodeAt_eq_none_iff (op b1 b2 : Byte) : decodeAt op b1 b2 = none ↔ decodeAt op 0 0 = none := by
  refine ⟨decodeAt_zero_eq_none, fun h => ?_⟩
  cases hi : decodeAt op b1 b2 with
  | none => rfl
  | some i =>
    obtain ⟨j, hj, -⟩ := decodeAt_inv hi 0 0
    cases h.symm.trans hj

theorem decodeAt_zero_of_mem_unrecognizedOpcodes {op : Byte} (h : op ∈ unrecognizedOpcodes) : decodeAt op 0 0 = none := by
  have hall : unrecognizedOpcodes.all (fun op => (decodeAt op 0 0).isNone) = true := by decide
  exact Option.isNone_iff_eq_none.mp (List.all_eq_true.mp hall op h)

theorem decodeAt_eq_none_iff_mem (op b1 b2 : Byte) : decodeAt op b1 b2 = none ↔ op ∈ unrecognizedOpcodes :=
  (decodeAt_eq_none_iff op b1 b2).trans
    ⟨mem_unrecognizedOpcodes_of_decodeAt_zero op, decodeAt_zero_of_mem_unrecognizedOpcodes⟩

/-- The list is strictly rising. -/
theorem nodup_unrecognizedOpcodes : unrecognizedOpcodes.Nodup := by
  have rising : unrecognizedOpcodes.IsChain (· < ·) := by simp [unrecognizedOpcodes]
  exact rising.pairwise.imp BitVec.ne_of_lt

/-- Settles O5. -/
theorem unrecognizedBytesAreThe127 : Obligations.UnrecognizedBytesAreThe127 :=
  ⟨rfl, nodup_unrecognizedOpcodes, fun op _ => decode_eq_unrecognized_iff.trans (decodeAt_eq_none_iff_mem op _ _)⟩

/-! The fetch -/

theorem step_of_fetchInstr {s : State} {i : Instr} (hs : s.Idle) (h : fetchInstr s = some i) : step s = exec i s := by
  obtain ⟨hh, -⟩ | ⟨-, j, hj, e⟩ | ⟨-, hn, -⟩ := step_cases s
  · cases hs.symm.trans hh
  · rw [e, Option.some.inj (hj.symm.trans h)]
  · cases hn.symm.trans h

/-- Settles O1: the list decoder on the three bytes at `PC` looks at the bytes the fetch does. -/
theorem stepRunsDecodedInstruction : Obligations.StepRunsDecodedInstruction := by
  intro s i rest hs h
  obtain ⟨op, tl, hb, hd, -⟩ := decode_inv h
  cases hb
  exact step_of_fetchInstr hs hd

end Sys2Proof.Machine
end

section
/-! The addressing modes as arithmetic: sums, vectors, page crossing and cost (R52 to R58). -/

namespace Sys2Proof.Machine

/-! Zero-page and absolute -/

theorem toNat_zext16_add (b v : Byte) : (zext16 (b + v)).toNat = (b.toNat + v.toNat) % 256 :=
  (toNat_zext16 _).trans (BitVec.toNat_add b v)

/-- Settles O22. -/
theorem directModesResolve : Obligations.DirectModesResolve :=
  fun s _ b _ => ⟨⟨rfl, rfl⟩, ⟨toNat_zext16 b, rfl, rfl⟩, ⟨toNat_zext16_add b s.x, rfl, rfl⟩,
    ⟨toNat_zext16_add b s.y, rfl, rfl⟩, rfl, rfl, rfl⟩

/-! Indexed: a base and an index byte -/

theorem toNat_add_zext16 (base : Word) (v : Byte) : (base + zext16 v).toNat = (base.toNat + v.toNat) % 65536 := by
  rw [BitVec.toNat_add, toNat_zext16]

theorem pagesDiffer_add_zext16 (base : Word) (v : Byte) :
    pagesDiffer (base + zext16 v) base = decide ((base.toNat + v.toNat) % 65536 / 256 ≠ base.toNat / 256) := by
  rw [pagesDiffer_eq, toNat_add_zext16]

/-- Settles O23: both modes are the sum of a base and an index. -/
theorem indexedAbsoluteModesResolve : Obligations.IndexedAbsoluteModesResolve :=
  fun s w => ⟨⟨toNat_add_zext16 w s.x, pagesDiffer_add_zext16 w s.x, rfl⟩,
    toNat_add_zext16 w s.y, pagesDiffer_add_zext16 w s.y, rfl⟩

/-! Indirect: the word at a zero-page vector -/

theorem zext16_eq_ofNat (b : Byte) : zext16 b = BitVec.ofNat 16 b.toNat :=
  (BitVec.ofNat_toNat 16 b).symm

/-- The high byte lies at the vector's address plus one, 0x0100 for the vector 0x00FF (the spec's decision D7). -/
theorem toNat_wordAt_zext16 (s : State) (b : Byte) :
    (wordAt s (zext16 b)).toNat =
      (byteAt s (BitVec.ofNat 16 (b.toNat + 1))).toNat * 256 + (byteAt s (BitVec.ofNat 16 b.toNat)).toNat := by
  rw [toNat_wordAt, zext16_eq_ofNat, BitVec.ofNat_add]
  rfl

/-- Settles O24: the one mode reads the vector `b + X`, the other adds `Y` to the word read from the vector `b`. -/
theorem indirectModesResolve : Obligations.IndirectModesResolve := by
  intro s b
  refine ⟨⟨?_, rfl, rfl⟩, fun base hbase => ?_⟩
  · rw [← BitVec.toNat_add b s.x]
    exact toNat_wordAt_zext16 s (b + s.x)
  · rw [← toNat_wordAt_zext16] at hbase
    subst hbase
    exact ⟨toNat_add_zext16 _ s.y, pagesDiffer_add_zext16 _ s.y, rfl⟩

end Sys2Proof.Machine
end

section
/-! Loads and stores: each form runs the operation of its mnemonic on its operand, which the laws of that operation and the
form tables turn into the next state (R100 to R105). -/

namespace Sys2Proof.Machine

/-! Loads -/

theorem exec_eq_lda {i : Instr} {opc : Byte} {o : Operand} (h : readForm i = some (opc, o)) (hm : mnemonic i = .lda)
    (s : State) : exec i s = .next (lda o s) := by
  cases i <;> cases hm
  all_goals cases h; rfl

theorem exec_eq_ldx {i : Instr} {opc : Byte} {o : Operand} (h : readForm i = some (opc, o)) (hm : mnemonic i = .ldx)
    (s : State) : exec i s = .next (ldx o s) := by
  cases i <;> cases hm
  all_goals cases h; rfl

theorem exec_eq_ldy {i : Instr} {opc : Byte} {o : Operand} (h : readForm i = some (opc, o)) (hm : mnemonic i = .ldy)
    (s : State) : exec i s = .next (ldy o s) := by
  cases i <;> cases hm
  all_goals cases h; rfl

theorem nextPC_of_readForm {i : Instr} {opc : Byte} {o : Operand} (h : readForm i = some (opc, o)) (s : State) :
    nextPC i s = s.pc + 1 + BitVec.ofNat 16 (operandSize o) := by
  rw [nextPC_of_encode s (readForm_encode h), length_operandBytes]

theorem add_readCycles (n : Nat) (o : Operand) (s : State) : n + readCycles o s = n + 1 + operandCycles o s := by
  rw [readCycles_eq, Nat.add_assoc]

/-- Settles O25: the state each load's law gives, with `PC` and the count in the published terms. -/
theorem loadsWriteTheirRegister : Obligations.LoadsWriteTheirRegister := by
  intro i opc o s h
  rw [nextPC_of_readForm h, add_readCycles, ← setZN_eq_flagsZN]
  refine ⟨readForm_encode h, fun hm => ?_, fun hm => ?_, fun hm => ?_⟩
  · rw [exec_eq_lda h hm, lda_eq]
  · rw [exec_eq_ldx h hm, ldx_eq]
  · rw [exec_eq_ldy h hm, ldy_eq]

/-! Stores -/

/-- The three store mnemonics are one operation, of the byte each stores. -/
theorem exec_eq_storeOperand {i : Instr} {opc : Byte} {m : AddrMode} {v : Byte} {s : State}
    (h : storeForm i = some (opc, m)) (hv : IsStoredByte (mnemonic i) s v) :
    exec i s = .next (storeOperand m v (afterOpcode s)) := by
  obtain ⟨hm, rfl⟩ | ⟨hm, rfl⟩ | ⟨hm, rfl⟩ := hv <;> cases i <;> cases hm
  all_goals cases h; rfl

theorem nextPC_of_storeForm {i : Instr} {opc : Byte} {m : AddrMode} (h : storeForm i = some (opc, m)) (s : State) :
    nextPC i s = s.pc + 1 + BitVec.ofNat 16 (operandLength m) := by
  rw [nextPC_of_encode s (storeForm_encode h), length_modeBytes]

theorem add_storeCycles (n : Nat) (m : AddrMode) :
    n + storeCycles m = n + 1 + operandLength m + pointerCycles m + flatIndexCycles m + 1 := by
  simp only [storeCycles_eq, Nat.add_assoc]

theorem byteAt_storeOperand_afterOpcode (m : AddrMode) (v : Byte) (s : State) (q : Word) :
    byteAt (storeOperand m v (afterOpcode s)) q = if q = effectiveAddress m s then v else byteAt s q :=
  byteAt_write s _ _ v (by rw [storeOperand_afterOpcode]) q

/-- Settles O26. -/
theorem storesWriteOneCell : Obligations.StoresWriteOneCell := by
  intro i opc m v s h hv
  refine ⟨storeForm_encode h, _, exec_eq_storeOperand h hv, byteAt_storeOperand_afterOpcode m v s, ?_⟩
  rw [nextPC_of_storeForm h, add_storeCycles, storeOperand_afterOpcode]

end Sys2Proof.Machine
end

section
/-! Register transfers: whole next states, with the flags of R17 in the published terms (R110 to R115). -/

namespace Sys2Proof.Machine

/-- TXS is the transfer that leaves the flags alone (the spec's decision D11). -/
theorem exec_txs_eq (s : State) :
    exec .txs s = .next { s with sp := s.x, pc := s.pc + 1, cycles := s.cycles + 2 } :=
  congrArg Host.Outcome.next (transferXToSP_eq Config.txsSetsZN s)

/-- Settles O27: with the flags of R17 as the model's `setZN`, the first five are `exec` unfolded; TXS has its own law. -/
theorem transfersCopyRegisters : Obligations.TransfersCopyRegisters := by
  intro s
  simp only [← setZN_eq_flagsZN]
  exact ⟨⟨rfl, rfl⟩, ⟨rfl, rfl⟩, ⟨rfl, rfl⟩, ⟨rfl, rfl⟩, ⟨rfl, rfl⟩, rfl, exec_txs_eq s⟩

end Sys2Proof.Machine
end

section
/-! The stack instructions: the accumulator and the status byte through the stack, and what the open parameters of PHP, PLP and
TXS can reach (R115, R120 to R123). -/

namespace Sys2Proof.Machine

/-! The accumulator -/

theorem byteAt_pushA (s : State) (q : Word) :
    byteAt (pushA s) q = if q = stackAddress s.sp then s.a else byteAt s q :=
  byteAt_write s _ _ s.a rfl q

/-- Settles O28. -/
theorem phaAndPlaMoveTheAccumulator : Obligations.PhaAndPlaMoveTheAccumulator := by
  refine fun s => ⟨⟨rfl, pushA s, rfl, byteAt_pushA s, pushA_eq s⟩, rfl, ?_⟩
  rintro _ rfl
  rw [← setZN_eq_flagsZN]
  exact congrArg Host.Outcome.next (pullA_eq s)

/-! The status byte: forced bits touch bits 4 and 5 alone (the spec's decision D4) -/

theorem getLsbD_eq_false_of_and_eq_zero {forced : Byte} (h : forced &&& 0xCF = 0) {k : Nat} (h4 : k ≠ 4) (h5 : k ≠ 5) :
    forced.getLsbD k = false := by
  by_cases hk : k < 8
  · have hbit : (forced &&& 0xCF).getLsbD k = false := by
      rw [h]
      exact BitVec.getLsbD_zero
    have hmask : ∀ j < 8, j ≠ 4 → j ≠ 5 → (0xCF : Byte).getLsbD j = true := by decide
    rwa [BitVec.getLsbD_and, hmask k hk h4 h5, Bool.and_true] at hbit
  · exact BitVec.getLsbD_of_ge forced k (by omega)

theorem getLsbD_packP_or {forced : Byte} (h : forced &&& 0xCF = 0) (f : Flags) {k : Nat} (h4 : k ≠ 4) (h5 : k ≠ 5) :
    (packP f ||| forced).getLsbD k = (packP f).getLsbD k := by
  rw [BitVec.getLsbD_or, getLsbD_eq_false_of_and_eq_zero h h4 h5, Bool.or_false]

theorem getLsbD_packP_or_of_forced {forced : Byte} {k : Nat} (hk : forced.getLsbD k = true) (f : Flags) :
    (packP f ||| forced).getLsbD k = true := by
  rw [BitVec.getLsbD_or, hk, Bool.or_true]

theorem packP_or_bits {forced : Byte} (h : forced &&& 0xCF = 0) (f : Flags) :
    (packP f ||| forced).getLsbD 0 = f.c ∧ (packP f ||| forced).getLsbD 1 = f.z ∧ (packP f ||| forced).getLsbD 2 = f.i ∧
    (packP f ||| forced).getLsbD 3 = f.d ∧ (packP f ||| forced).getLsbD 6 = f.v ∧ (packP f ||| forced).getLsbD 7 = f.n := by
  obtain ⟨hc, hz, hi, hd, -, -, hv, hn⟩ := packP_bits f
  refine ⟨?_, ?_, ?_, ?_, ?_, ?_⟩
  all_goals rw [getLsbD_packP_or h f (by decide) (by decide)]; assumption

/-- A pull that leaves `B` and `U` undoes a push of the same flags, whatever the push forces. -/
theorem unpackP_packP_or {forced : Byte} (h : forced &&& 0xCF = 0) (f : Flags) :
    unpackP false (packP f ||| forced) f = f := by
  obtain ⟨hc, hz, hi, hd, hv, hn⟩ := packP_or_bits h f
  simp only [unpackP, hc, hz, hi, hd, hv, hn, Bool.false_eq_true, if_false]

theorem phpForcedBits_and_eq_zero : Config.phpForcedBits &&& 0xCF = 0 := by decide

/-! PHP and PLP -/

theorem byteAt_pushStatus (forced : Byte) (s : State) (q : Word) :
    byteAt (pushStatus forced s) q = if q = stackAddress s.sp then packP s.flags ||| forced else byteAt s q :=
  byteAt_write s _ _ _ rfl q

theorem byteAt_pushStatus_slot (forced : Byte) (s : State) :
    byteAt (pushStatus forced s) (stackAddress s.sp) = packP s.flags ||| forced := by
  rw [byteAt_pushStatus, if_pos rfl]

/-- Settles O29: bits 4 and 5 are the forced ones, the other six the flags'. -/
theorem phpPushesTheStatusByte : Obligations.PhpPushesTheStatusByte := by
  intro s
  obtain ⟨hc, hz, hi, hd, hv, hn⟩ := packP_or_bits phpForcedBits_and_eq_zero s.flags
  have h4 : (packP s.flags ||| Config.phpForcedBits).getLsbD 4 = true := getLsbD_packP_or_of_forced rfl s.flags
  have h5 : (packP s.flags ||| Config.phpForcedBits).getLsbD 5 = true := getLsbD_packP_or_of_forced rfl s.flags
  exact ⟨rfl, _, _, rfl, byteAt_pushStatus _ s, ⟨hc, hz, hi, hd, h4, h5, hv, hn⟩, pushStatus_eq _ s⟩

/-- Settles O30. -/
theorem plpPullsSixFlags : Obligations.PlpPullsSixFlags := by
  rintro s _ rfl
  exact ⟨rfl, congrArg Host.Outcome.next (pullStatus_eq Config.plpWritesBU s)⟩

/-- The slot PLP pulls from is the one PHP pushed to, so the flags come back by `unpackP_packP_or`. -/
theorem pullStatus_pushStatus {forced : Byte} (h : forced &&& 0xCF = 0) (s : State) :
    pullStatus false (pushStatus forced s) =
      { s with mem := (pushStatus forced s).mem, pc := s.pc + 2, cycles := s.cycles + 7 } := by
  have hsp : (pushStatus forced s).sp + 1 = s.sp := BitVec.sub_add_cancel s.sp 1
  have hflags : unpackP false (byteAt (pushStatus forced s) (stackAddress s.sp)) (pushStatus forced s).flags = s.flags := by
    rw [byteAt_pushStatus_slot]
    exact unpackP_packP_or h s.flags
  have hpc : (pushStatus forced s).pc + 1 = s.pc + 2 := BitVec.add_assoc s.pc 1 1
  rw [pullStatus_eq, hsp, hflags, hpc]
  rfl

/-- Settles O31. -/
theorem phpThenPlpRestoresFlags : Obligations.PhpThenPlpRestoresFlags :=
  fun s => ⟨_, _, rfl, rfl, pullStatus_pushStatus phpForcedBits_and_eq_zero s⟩

/-! The open parameters -/

theorem transferXToSP_true (s : State) :
    transferXToSP true s = { transferXToSP false s with flags := flagsZN s.x s.flags } := by
  rw [← setZN_eq_flagsZN]
  rfl

/-- Settles O32: forced bits reach the pushed byte alone, and there bits 4 and 5 alone; the other two parameters reach the flags
they name. -/
theorem openParametersStayLocal : Obligations.OpenParametersStayLocal := by
  intro s forced h
  refine ⟨fun k h4 h5 => ?_, fun q hq => ?_, rfl, rfl, transferXToSP_true s⟩
  · rw [byteAt_pushStatus_slot, byteAt_pushStatus_slot, getLsbD_packP_or h _ h4 h5, getLsbD_packP_or (by decide) _ h4 h5]
  · rw [byteAt_pushStatus, if_neg hq]

end Sys2Proof.Machine
end

section
/-! Logical instructions: AND, ORA and EOR are one operation of three byte functions, BIT writes flags alone (R130 to R133). -/

namespace Sys2Proof.Machine

/-! AND, ORA, EOR -/

/-- The result `r` each logical mnemonic makes of the accumulator `a` and its operand `m` (R130 to R132). -/
abbrev IsLogicalResult (mn : Mnemonic) (a m r : Byte) : Prop :=
  mn = .and ∧ r = a &&& m ∨ mn = .ora ∧ r = a ||| m ∨ mn = .eor ∧ r = a ^^^ m

/-- Each form of the three mnemonics runs `logical`, with the byte function of its mnemonic. -/
theorem exec_eq_logical {i : Instr} {opc : Byte} {o : Operand} {r : Byte} {s : State} (h : readForm i = some (opc, o))
    (hr : IsLogicalResult (mnemonic i) s.a (operandValue o s) r) :
    ∃ f, r = f s.a (operandValue o s) ∧ exec i s = .next (logical f o s) := by
  obtain ⟨hm, hr⟩ | ⟨hm, hr⟩ | ⟨hm, hr⟩ := hr
  all_goals
    refine ⟨_, hr, ?_⟩
    cases i <;> cases hm
    all_goals cases h; rfl

/-- Settles O33: the state `logical` leaves, with `PC` and the count in the published terms. -/
theorem logicalWritesTheAccumulator : Obligations.LogicalWritesTheAccumulator := by
  intro i opc o r s h hr
  obtain ⟨f, rfl, he⟩ := exec_eq_logical h hr
  rw [nextPC_of_readForm h, add_readCycles, ← setZN_eq_flagsZN]
  exact ⟨readForm_encode h, he.trans (congrArg Host.Outcome.next (logical_eq f o s))⟩

/-! BIT -/

/-- BIT has memory forms alone. -/
theorem exec_eq_bitTest {i : Instr} {opc : Byte} {o : Operand} (h : readForm i = some (opc, o)) (hm : mnemonic i = .bit)
    (s : State) : ∃ m, o = .memory m ∧ exec i s = .next (bitTest m s) := by
  cases i <;> cases hm
  all_goals cases h; exact ⟨_, rfl, rfl⟩

/-- Settles O34: the state `bitTest` leaves is the old one but for the flags, `PC` and the count, and the model's
`bitFlags` are the published flags by definition. -/
theorem bitTestsMemory : Obligations.BitTestsMemory := by
  intro i opc o s h hm
  obtain ⟨m, rfl, he⟩ := exec_eq_bitTest h hm s
  rw [nextPC_of_readForm h, add_readCycles]
  exact ⟨readForm_encode h, he.trans (congrArg Host.Outcome.next (bitTest_eq m s))⟩

end Sys2Proof.Machine
end

section
/-! Increment and decrement: steps of a byte modulo 256, in a cell or in an index register (R140 to R145). -/

namespace Sys2Proof.Machine

/-! Bytes -/

theorem eq_add_one_of_toNat {r v : Byte} (h : r.toNat = (v.toNat + 1) % 256) : r = v + 1 :=
  BitVec.eq_of_toNat_eq (h.trans (BitVec.toNat_add v 1).symm)

theorem eq_sub_one_of_toNat {r v : Byte} (h : r.toNat = (v.toNat + 255) % 256) : r = v - 1 := by
  rw [Nat.add_comm] at h
  exact BitVec.eq_of_toNat_eq (h.trans (BitVec.toNat_sub v 1).symm)

/-! INC and DEC -/

/-- The result `r` INC and DEC make of the byte `v` of their cell (R140, R141). -/
abbrev IsModifyResult (mn : Mnemonic) (v r : Byte) : Prop :=
  mn = .inc ∧ r.toNat = (v.toNat + 1) % 256 ∨ mn = .dec ∧ r.toNat = (v.toNat + 255) % 256

/-- Each form of the two mnemonics runs `modifyMemory`, with the byte function of its mnemonic. -/
theorem exec_eq_modifyMemory {i : Instr} {opc : Byte} {m : AddrMode} {r : Byte} {s : State}
    (h : modifyForm i = some (opc, m)) (hr : IsModifyResult (mnemonic i) (byteAt s (effectiveAddress m s)) r) :
    ∃ f, r = f (byteAt s (effectiveAddress m s)) ∧ exec i s = .next (modifyMemory f m s) := by
  obtain ⟨hm, hr⟩ | ⟨hm, hr⟩ := hr
  · refine ⟨fun v => v + 1, eq_add_one_of_toNat hr, ?_⟩
    cases i <;> cases hm
    all_goals cases h; rfl
  · refine ⟨fun v => v - 1, eq_sub_one_of_toNat hr, ?_⟩
    cases i <;> cases hm
    all_goals cases h; rfl

theorem nextPC_of_modifyForm {i : Instr} {opc : Byte} {m : AddrMode} (h : modifyForm i = some (opc, m)) (s : State) :
    nextPC i s = s.pc + 1 + BitVec.ofNat 16 (operandLength m) := by
  rw [nextPC_of_encode s (modifyForm_encode h), length_modeBytes]

/-- A store's accesses, then one read and one internal cycle more (R140, R240). -/
theorem add_modifyCycles (n : Nat) (m : AddrMode) :
    n + modifyCycles m = n + 1 + operandLength m + pointerCycles m + flatIndexCycles m + 1 + 1 + 1 := by
  rw [modifyCycles, ← Nat.add_assoc, add_storeCycles]

theorem byteAt_modifyMemory (f : Byte → Byte) (m : AddrMode) (s : State) (q : Word) :
    byteAt (modifyMemory f m s) q =
      if q = effectiveAddress m s then f (byteAt s (effectiveAddress m s)) else byteAt s q :=
  byteAt_write s _ _ _ (by rw [modifyMemory_eq]) q

/-- Settles O35: the cell and the state `modifyMemory` leaves, with `PC` and the count in the published terms. -/
theorem incAndDecModifyOneCell : Obligations.IncAndDecModifyOneCell := by
  intro i opc m r s h hr
  obtain ⟨f, rfl, he⟩ := exec_eq_modifyMemory h hr
  refine ⟨modifyForm_encode h, _, he, byteAt_modifyMemory f m s, ?_⟩
  rw [nextPC_of_modifyForm h, add_modifyCycles, ← setZN_eq_flagsZN, modifyMemory_eq]

/-! INX, INY, DEX and DEY -/

/-- Settles O36: the result is the register plus or minus 1 as bytes, and with the flags of R17 as the model's `setZN` each
clause is `exec` unfolded. -/
theorem registerStepsWrap : Obligations.RegisterStepsWrap := by
  intro s r
  simp only [← setZN_eq_flagsZN]
  refine ⟨fun h => ?_, fun h => ?_, fun h => ?_, fun h => ?_⟩
  · cases eq_add_one_of_toNat h
    exact ⟨rfl, rfl⟩
  · cases eq_add_one_of_toNat h
    exact ⟨rfl, rfl⟩
  · cases eq_sub_one_of_toNat h
    exact ⟨rfl, rfl⟩
  · cases eq_sub_one_of_toNat h
    exact ⟨rfl, rfl⟩

end Sys2Proof.Machine
end

section
/-! Jumps, call and return: where each leaves `PC`, and the return slot that JSR and RTS share (R150 to R153). -/

namespace Sys2Proof.Machine

/-! JMP -/

/-- Settles O37: the word at the pointer is the target, because its value is. -/
theorem jumpsSetPC : Obligations.JumpsSetPC := by
  refine fun s w target => ⟨⟨rfl, congrArg Host.Outcome.next (jumpTo_eq w s)⟩, rfl, fun h => ?_⟩
  obtain rfl : target = wordAt s w := BitVec.eq_of_toNat_eq (h.trans (toNat_wordAt s w).symm)
  exact congrArg Host.Outcome.next (jumpThrough_eq w s)

/-! JSR -/

/-- JSR is a push of `PC + 2`, the address of its own last byte, and a jump. -/
theorem callTo_eq_pushWord (w : Word) (s : State) :
    callTo w s = { s with mem := (pushWord (s.pc + 2) s).mem, sp := s.sp - 2, pc := w, cycles := s.cycles + 6 } := by
  have hpc : s.pc + 1 + 2 - 1 = s.pc + 2 := by bv_omega
  have hsp : s.sp - 1 - 1 = s.sp - 2 := by bv_omega
  rw [callTo_eq, hpc, hsp]
  rfl

theorem byteAt_callTo (w : Word) (s : State) (q : Word) :
    byteAt (callTo w s) q =
      if q = stackAddress s.sp then hiByte (s.pc + 2)
      else if q = stackAddress (s.sp - 1) then loByte (s.pc + 2)
      else byteAt s q := by
  have hpush : byteAt (callTo w s) q = byteAt (pushWord (s.pc + 2) s) q := by
    rw [callTo_eq_pushWord]
    rfl
  rw [hpush]
  by_cases hq : q = stackAddress s.sp
  · rw [if_pos hq, hq, byteAt_pushWord_hi]
  · rw [if_neg hq, byteAt_pushWord, if_neg hq]

/-- Settles O38. -/
theorem jsrPushesItsLastAddress : Obligations.JsrPushesItsLastAddress := by
  refine fun s w => ⟨rfl, callTo w s, rfl, fun q => ?_, ?_⟩
  · rw [← hiByte_eq_ofNat, ← loByte_eq_ofNat, byteAt_callTo]
  · rw [callTo_eq_pushWord]

/-! RTS -/

/-- RTS is a pop of a word and a jump past it. -/
theorem returnFromCall_eq_popWord (s : State) :
    returnFromCall s = { s with pc := (popWord s).1 + 1, sp := s.sp + 2, cycles := s.cycles + 6 } := by
  have hsp : s.sp + 1 + 1 = s.sp + 2 := BitVec.add_assoc s.sp 1 1
  rw [returnFromCall_eq, popWord_eq, hsp]

theorem toNat_popWord (s : State) :
    (popWord s).1.toNat =
      (byteAt s (stackAddress (s.sp + 2))).toNat * 256 + (byteAt s (stackAddress (s.sp + 1))).toNat := by
  rw [popWord_eq, BitVec.add_assoc s.sp 1 1]
  exact toNat_joinBytes _ _

/-- Settles O39: the target is the popped word plus one, because its value is. -/
theorem rtsReturnsPastThePoppedWord : Obligations.RtsReturnsPastThePoppedWord := by
  intro s target h
  rw [← toNat_popWord] at h
  obtain rfl : target = (popWord s).1 + 1 := BitVec.eq_of_toNat_eq (h.trans (BitVec.toNat_add _ 1).symm)
  exact ⟨rfl, congrArg Host.Outcome.next (returnFromCall_eq_popWord s)⟩

/-! JSR, then RTS -/

/-- A pop reads `SP` and memory alone, so RTS pops from JSR's state what it would pop right after JSR's push. -/
theorem popWord_callTo (w : Word) (s : State) : (popWord (callTo w s)).1 = s.pc + 2 := by
  calc (popWord (callTo w s)).1
      = (popWord (pushWord (s.pc + 1 + 2 - 1) s)).1 := rfl
    _ = s.pc + 1 + 2 - 1 := by rw [popWord_pushWord]
    _ = s.pc + 2 := by bv_omega

theorem returnFromCall_callTo (w : Word) (s : State) :
    returnFromCall (callTo w s) =
      { s with mem := (callTo w s).mem, pc := s.pc + 3, cycles := s.cycles + 12 } := by
  have hpc : s.pc + 2 + 1 = s.pc + 3 := BitVec.add_assoc s.pc 2 1
  have hsp : (callTo w s).sp + 2 = s.sp := by
    rw [callTo_eq_pushWord]
    exact BitVec.sub_add_cancel s.sp 2
  rw [returnFromCall_eq_popWord, popWord_callTo, hpc, hsp]
  rfl

/-- Settles O40. -/
theorem callThenReturnRestoresSP : Obligations.CallThenReturnRestoresSP :=
  fun s w => ⟨callTo w s, returnFromCall (callTo w s), rfl, rfl, returnFromCall_callTo w s⟩

end Sys2Proof.Machine
end

section
/-! Conditional branches: the one operation behind them, in the rules' arithmetic, and the flag each one hands it (R160 to
R168). -/

namespace Sys2Proof.Machine

/-! The branch operation -/

/-- The address after the opcode and the displacement. -/
theorem word_add_one_add_one (p : Word) : p + 1 + 1 = p + 2 := BitVec.add_assoc p 1 1

theorem branchIf_not_taken (off : Byte) (s : State) :
    branchIf false off s = { s with pc := s.pc + 2, cycles := s.cycles + 2 } := by
  rw [branchIf_false, word_add_one_add_one]

theorem toNat_pagesDiffer (a b : Word) :
    (pagesDiffer a b).toNat = if a.toNat / 256 ≠ b.toNat / 256 then 1 else 0 := by
  rw [pagesDiffer_eq]
  split
  · next h => rw [decide_eq_true h, Bool.toNat_true]
  · next h => rw [decide_eq_false h, Bool.toNat_false]

/-- The three cycles of a taken branch are two fetches and the branch itself; the fourth is the page crossing's (R160). -/
theorem branchIf_taken (off : Byte) (s : State) :
    branchIf true off s = { s with
      pc := branchTarget (s.pc + 2) off
      cycles := s.cycles + 3 +
        if (branchTarget (s.pc + 2) off).toNat / 256 ≠ (s.pc + 2).toNat / 256 then 1 else 0 } := by
  have hcycles (n k : Nat) : n + 1 + 1 + (1 + k) = n + 3 + k := by omega
  rw [branchIf_true, word_add_one_add_one, hcycles, toNat_pagesDiffer]

/-- Settles O41. -/
theorem branchOperationMovesPC : Obligations.BranchOperationMovesPC := by
  rintro off s _ rfl
  rw [branchIf_taken]
  exact ⟨branchIf_not_taken off s, toNat_branchTarget _ off, rfl⟩

/-! The eight branches -/

theorem branchForm_encode {i : Instr} {f : Flags} {opc off : Byte} {taken : Bool}
    (h : branchForm i f = some (opc, off, taken)) : encode i = [opc, off] := by
  unfold branchForm at h
  split at h <;> cases h <;> rfl

/-- Each branch runs `branchIf`, on its flag or on the flag's negation. -/
theorem exec_eq_branchIf {i : Instr} {opc off : Byte} {taken : Bool} {s : State}
    (h : branchForm i s.flags = some (opc, off, taken)) : exec i s = .next (branchIf taken off s) := by
  unfold branchForm at h
  simp only [Bool.decide_eq_true, Bool.decide_eq_false] at h
  split at h <;> cases h <;> rfl

/-- Settles O42, by the two outcomes of the branch operation. -/
theorem branchesTestTheirFlag : Obligations.BranchesTestTheirFlag := by
  intro i opc off taken s h
  refine ⟨branchForm_encode h, (exec_eq_branchIf h).trans (congrArg Host.Outcome.next ?_)⟩
  cases taken with
  | false => exact branchIf_not_taken off s
  | true => exact branchIf_taken off s

end Sys2Proof.Machine
end

section
/-! Arithmetic with carry: ADC and SBC are one adder, whose result and flags are stated in the published terms, and whose V is
the signed overflow (R170, R171). -/

namespace Sys2Proof.Machine

/-! The forms -/

theorem exec_eq_adc {i : Instr} {opc : Byte} {o : Operand} (h : readForm i = some (opc, o)) (hm : mnemonic i = .adc)
    (s : State) : exec i s = .next (adc o s) := by
  cases i <;> cases hm
  all_goals cases h; rfl

theorem exec_eq_sbc {i : Instr} {opc : Byte} {o : Operand} (h : readForm i = some (opc, o)) (hm : mnemonic i = .sbc)
    (s : State) : exec i s = .next (sbc o s) := by
  cases i <;> cases hm
  all_goals cases h; rfl

/-! The adder -/

theorem addOverflow_eq_decide (a m : Byte) (carry : Bool) :
    addOverflow a m carry =
      decide (a.getLsbD 7 = m.getLsbD 7 ∧ (addResult a m carry).getLsbD 7 ≠ a.getLsbD 7) := by
  simp only [addOverflow, BitVec.msb_eq_getLsbD_last, Nat.reduceSub, Bool.decide_and, beq_eq_decide, bne, ne_eq, decide_not]

theorem addFlags_eq (a m : Byte) (f : Flags) :
    addFlags a m f = { f with
      c := decide (255 < a.toNat + m.toNat + f.c.toNat)
      v := decide (a.getLsbD 7 = m.getLsbD 7 ∧ (addResult a m f.c).getLsbD 7 ≠ a.getLsbD 7)
      z := decide (addResult a m f.c = 0), n := (addResult a m f.c).getLsbD 7 } := by
  rw [addFlags, setZN_eq_flagsZN, addCarry_eq, addOverflow_eq_decide]
  rfl

/-- Settles O43: the result is the adder's because its value is. -/
theorem adcAddsWithCarry : Obligations.AdcAddsWithCarry := by
  rintro i opc o r _ _ s h hm rfl rfl hr
  obtain rfl : r = addResult s.a (operandValue o s) s.flags.c :=
    BitVec.eq_of_toNat_eq (hr.trans (toNat_addResult _ _ _).symm)
  rw [nextPC_of_readForm h, add_readCycles, exec_eq_adc h hm, adc_eq, addFlags_eq]
  exact ⟨readForm_encode h, rfl⟩

/-! SBC adds the one's complement -/

theorem toNat_addResult_onesComplement (a m : Byte) (carry : Bool) :
    (addResult a (onesComplement m) carry).toNat = (a.toNat + 512 - m.toNat - (1 - carry.toNat)) % 256 := by
  have := m.isLt
  have := carry.toNat_le
  rw [toNat_addResult, toNat_onesComplement]
  omega

/-- The adder carries out exactly if the subtraction does not borrow. -/
theorem carry_onesComplement_iff (a m : Byte) (carry : Bool) :
    255 < a.toNat + (onesComplement m).toNat + carry.toNat ↔ m.toNat + (1 - carry.toNat) ≤ a.toNat := by
  have := m.isLt
  have := carry.toNat_le
  rw [toNat_onesComplement]
  omega

theorem getLsbD_seven_onesComplement (m : Byte) : (onesComplement m).getLsbD 7 = !m.getLsbD 7 := by
  simpa only [BitVec.msb_eq_getLsbD_last] using msb_onesComplement m

/-- Settles O44: the adder's result and flags for the operand's one's complement, read as a difference with borrow. -/
theorem sbcSubtractsWithBorrow : Obligations.SbcSubtractsWithBorrow := by
  rintro i opc o r _ _ s h hm rfl rfl hr
  obtain rfl : r = addResult s.a (onesComplement (operandValue o s)) s.flags.c :=
    BitVec.eq_of_toNat_eq (hr.trans (toNat_addResult_onesComplement _ _ _).symm)
  rw [nextPC_of_readForm h, add_readCycles, exec_eq_sbc h hm, sbc_eq, addFlags_eq]
  simp only [carry_onesComplement_iff, getLsbD_seven_onesComplement, Bool.eq_not, readForm_encode h, and_self]

/-! Signed overflow -/

theorem signed8_onesComplement (m : Byte) : signed8 (onesComplement m) = -1 - signed8 m := by
  have := m.isLt
  unfold signed8
  rw [toNat_onesComplement]
  split <;> split <;> omega

theorem addOverflow_iff (a m : Byte) (carry : Bool) :
    addOverflow a m carry = true ↔
      (128 ≤ a.toNat ↔ 128 ≤ m.toNat) ∧ ¬(128 ≤ (a.toNat + m.toNat + carry.toNat) % 256 ↔ 128 ≤ a.toNat) := by
  simp only [addOverflow, BitVec.msb_eq_decide, Nat.reduceSub, Nat.reducePow, toNat_addResult, Bool.and_eq_true,
    beq_iff_eq, bne_iff_ne, ne_eq, decide_eq_decide]

/-- V by the signs is V by the exact sum: both say that the sum is outside the range of a signed byte. -/
theorem addOverflow_eq_out_of_range (a m : Byte) (carry : Bool) :
    addOverflow a m carry =
      decide (signed8 a + signed8 m + carry.toNat < -128 ∨ 127 < signed8 a + signed8 m + carry.toNat) := by
  have := a.isLt
  have := m.isLt
  have := carry.toNat_le
  rw [Bool.eq_iff_iff, addOverflow_iff, decide_eq_true_iff]
  unfold signed8
  split <;> split <;> omega

theorem signed8_addResult_of_in_range {a m : Byte} {carry : Bool}
    (h : ¬(signed8 a + signed8 m + carry.toNat < -128 ∨ 127 < signed8 a + signed8 m + carry.toNat)) :
    signed8 (addResult a m carry) = signed8 a + signed8 m + carry.toNat := by
  have := a.isLt
  have := m.isLt
  revert h
  simp only [signed8, toNat_addResult]
  split <;> split <;> split <;> omega

theorem signed8_addResult_of_not_overflow {a m : Byte} {carry : Bool} (h : addOverflow a m carry = false) :
    signed8 (addResult a m carry) = signed8 a + signed8 m + carry.toNat := by
  rw [addOverflow_eq_out_of_range] at h
  exact signed8_addResult_of_in_range (of_decide_eq_false h)

/-- Settles O45: the difference is the sum with the one's complement, whose signed reading is `-1 - m`. -/
theorem overflowIsSignedOverflow : Obligations.OverflowIsSignedOverflow := by
  rintro a m carry _ diff rfl hdiff
  obtain rfl : diff = signed8 a + signed8 (onesComplement m) + carry.toNat := by
    rw [hdiff, signed8_onesComplement]
    ring
  exact ⟨addOverflow_eq_out_of_range a m carry, addOverflow_eq_out_of_range a _ carry,
    signed8_addResult_of_not_overflow, signed8_addResult_of_not_overflow⟩

end Sys2Proof.Machine
end

section
/-! Compares: CMP, CPX and CPY are one flag computation on three registers (R172 to R174). -/

namespace Sys2Proof.Machine

/-- `reg` is the register that a compare mnemonic compares (R172 to R174). -/
abbrev IsComparedRegister (mn : Mnemonic) (s : State) (reg : Byte) : Prop :=
  mn = .cmp ∧ reg = s.a ∨ mn = .cpx ∧ reg = s.x ∨ mn = .cpy ∧ reg = s.y

/-- Each form of the three mnemonics runs the compare of its register, whose law gives the next state. -/
theorem exec_eq_compare {i : Instr} {opc : Byte} {o : Operand} {reg : Byte} {s : State} (h : readForm i = some (opc, o))
    (hreg : IsComparedRegister (mnemonic i) s reg) :
    exec i s = .next { s with
      flags := compareFlags reg (operandValue o s) s.flags
      pc := s.pc + 1 + BitVec.ofNat 16 (operandSize o), cycles := s.cycles + 1 + operandCycles o s } := by
  obtain ⟨hm, rfl⟩ | ⟨hm, rfl⟩ | ⟨hm, rfl⟩ := hreg
  on_goal 1 => rw [← cmp_eq]
  on_goal 2 => rw [← cpx_eq]
  on_goal 3 => rw [← cpy_eq]
  all_goals
    cases i <;> cases hm
    all_goals cases h; rfl

theorem eq_sub_of_toNat {r m diff : Byte} (h : diff.toNat = (r.toNat + 256 - m.toNat) % 256) : diff = r - m := by
  have := m.isLt
  apply BitVec.eq_of_toNat_eq
  rw [BitVec.toNat_sub, h]
  omega

theorem compareFlags_eq (r m : Byte) (f : Flags) :
    compareFlags r m f = { f with
      c := decide (m.toNat ≤ r.toNat), z := decide (r = m), n := (r - m).getLsbD 7 } := by
  rw [compareFlags, BitVec.msb_eq_getLsbD_last]
  rfl

/-- Settles O46. -/
theorem comparesWriteThreeFlags : Obligations.ComparesWriteThreeFlags := by
  rintro i opc o reg _ diff s h hreg rfl hdiff
  obtain rfl := eq_sub_of_toNat hdiff
  rw [nextPC_of_readForm h, add_readCycles, exec_eq_compare h hreg, compareFlags_eq]
  exact ⟨readForm_encode h, rfl⟩

end Sys2Proof.Machine
end

section
/-! The flags that are only held: an instruction that does not move or write `D` or `I` does the same whatever they are, and every
instruction whatever `B` and `U` are (R15, R170, R205; the spec's decisions D4, D6, D18). The tables of what an instruction writes
say so of everything but `PC` and the count. -/

namespace Sys2Proof.Machine

/-- The state with the held flags `I`, `D`, `B` and `U` of `g`. -/
def withHeldFlags (g : Flags) (s : State) : State :=
  s.setFlags { s.flags with i := g.i, d := g.d, b := g.b, u := g.u }

/-! Where an instruction goes and what it costs -/

theorem branchIf_withHeldFlags_pc_cycles (cond : Bool) (off : Byte) (g : Flags) (s : State) :
    (branchIf cond off (withHeldFlags g s)).pc = (branchIf cond off s).pc ∧
      (branchIf cond off (withHeldFlags g s)).cycles = (branchIf cond off s).cycles := by
  cases cond <;> exact ⟨rfl, rfl⟩

/-- Branches alone test flags to find where they go and what they cost, and none of them a held one. -/
theorem exec_withHeldFlags_pc_cycles (i : Instr) (g : Flags) (s : State) :
    ∃ t u, exec i s = .next t ∧ exec i (withHeldFlags g s) = .next u ∧ u.pc = t.pc ∧ u.cycles = t.cycles := by
  cases i
  case beq off | bne off | bcs off | bcc off | bmi off | bpl off | bvs off | bvc off =>
    exact ⟨_, _, rfl, rfl, branchIf_withHeldFlags_pc_cycles _ off g s⟩
  all_goals exact ⟨_, _, rfl, rfl, rfl, rfl⟩

/-! What it writes -/

/-- No table but those of the flags and of memory looks at a held flag. -/
theorem afterInstr_withHeldFlags (i : Instr) (p : Word) (n : Nat) (g : Flags) (s : State) :
    afterInstr i p n (withHeldFlags g s) = { afterInstr i p n s with
      flags := resultFlags (mnemonic i) (inputByte i s) (withHeldFlags g s)
      mem := writeCells (cellWrites (mnemonic i) (targetAddress i s) (inputByte i s) (withHeldFlags g s)) s.mem } := rfl

/-- Where the memory table does not see the held flags either, they reach the next state through the flag table alone. -/
theorem exec_withHeldFlags {i : Instr} {p : Word} {n : Nat} {g f : Flags} {s : State}
    (h : exec i s = .next (afterInstr i p n s))
    (hw : ∀ ea v, cellWrites (mnemonic i) ea v (withHeldFlags g s) = cellWrites (mnemonic i) ea v s)
    (hf : resultFlags (mnemonic i) (inputByte i s) (withHeldFlags g s) = f) :
    exec i (withHeldFlags g s) = .next { afterInstr i p n s with flags := f } := by
  obtain ⟨t, u, ht, hu, hpc, hcycles⟩ := exec_withHeldFlags_pc_cycles i g s
  cases h.symm.trans ht
  obtain ⟨q, m, rfl, -⟩ := exec_inv hu
  obtain rfl : q = p := hpc
  obtain rfl : m = n := hcycles
  rw [hu, afterInstr_withHeldFlags, hw, hf]
  rfl

/-! Memory -/

theorem cellWrites_withHeldFlags {mn : Mnemonic} (h : mn ≠ .php) (ea : Word) (v : Byte) (g : Flags) (s : State) :
    cellWrites mn ea v (withHeldFlags g s) = cellWrites mn ea v s := by
  cases mn
  case php => exact absurd rfl h
  all_goals rfl

/-- PHP forces bits 4 and 5, so the byte it pushes does not depend on `B` and `U` (the spec's decision D4). -/
theorem packP_or_phpForcedBits (f : Flags) (b u : Bool) :
    packP { f with b := b, u := u } ||| Config.phpForcedBits = packP f ||| Config.phpForcedBits := by
  obtain ⟨hc, hz, hi, hd, hv, hn⟩ := packP_or_bits phpForcedBits_and_eq_zero f
  obtain ⟨hc', hz', hi', hd', hv', hn'⟩ := packP_or_bits phpForcedBits_and_eq_zero { f with b := b, u := u }
  have h4 := getLsbD_packP_or_of_forced (forced := Config.phpForcedBits) (k := 4) rfl
  have h5 := getLsbD_packP_or_of_forced (forced := Config.phpForcedBits) (k := 5) rfl
  apply BitVec.eq_of_getLsbD_eq
  intro k hk
  interval_cases k <;> simp only [hc, hz, hi, hd, h4, h5, hv, hn, hc', hz', hi', hd', hv', hn']

theorem cellWrites_with_b_u (mn : Mnemonic) (ea : Word) (v : Byte) (b u : Bool) (s : State) :
    cellWrites mn ea v (withHeldFlags { s.flags with b := b, u := u } s) = cellWrites mn ea v s := by
  cases mn
  case php => exact congrArg (fun w => [(stackAddress s.sp, w)]) (packP_or_phpForcedBits s.flags b u)
  all_goals rfl

/-! Flags -/

theorem resultFlags_with_d {mn : Mnemonic} (h : mn ∉ [.php, .plp, .cld, .sed]) (v : Byte) (value : Bool) (s : State) :
    resultFlags mn v (withHeldFlags { s.flags with d := value } s) = { resultFlags mn v s with d := value } := by
  cases mn
  case plp | cld | sed => exact absurd (by decide) h
  all_goals rfl

theorem resultFlags_with_i {mn : Mnemonic} (h : mn ∉ [.php, .plp, .cli, .sei]) (v : Byte) (value : Bool) (s : State) :
    resultFlags mn v (withHeldFlags { s.flags with i := value } s) = { resultFlags mn v s with i := value } := by
  cases mn
  case plp | cli | sei => exact absurd (by decide) h
  all_goals rfl

theorem resultFlags_with_b (mn : Mnemonic) (v : Byte) (value : Bool) (s : State) :
    resultFlags mn v (withHeldFlags { s.flags with b := value } s) = { resultFlags mn v s with b := value } := by
  cases mn <;> rfl

theorem resultFlags_with_u (mn : Mnemonic) (v : Byte) (value : Bool) (s : State) :
    resultFlags mn v (withHeldFlags { s.flags with u := value } s) = { resultFlags mn v s with u := value } := by
  cases mn <;> rfl

/-- Settles O52: PHP apart, which moves `D` and `I`, no instruction writes a held flag to memory, and the flag table passes
each on to itself. -/
theorem storedFlagsInfluenceNothing : Obligations.StoredFlagsInfluenceNothing := by
  intro i s t value h
  obtain ⟨p, n, rfl, -⟩ := exec_inv h
  refine ⟨fun hm => ?_, fun hm => ?_, ?_, ?_⟩
  · exact exec_withHeldFlags (g := { s.flags with d := value }) h
      (fun ea v => cellWrites_withHeldFlags (List.ne_of_not_mem_cons hm) ea v _ s) (resultFlags_with_d hm _ value s)
  · exact exec_withHeldFlags (g := { s.flags with i := value }) h
      (fun ea v => cellWrites_withHeldFlags (List.ne_of_not_mem_cons hm) ea v _ s) (resultFlags_with_i hm _ value s)
  · exact exec_withHeldFlags (g := { s.flags with b := value }) h
      (fun ea v => cellWrites_with_b_u _ ea v value s.flags.u s) (resultFlags_with_b _ _ value s)
  · exact exec_withHeldFlags (g := { s.flags with u := value }) h
      (fun ea v => cellWrites_with_b_u _ ea v s.flags.b value s) (resultFlags_with_u _ _ value s)

end Sys2Proof.Machine
end

section
/-! The flag instructions and NOP (R180 to R187). -/

namespace Sys2Proof.Machine

/-- Settles O47: each one is the implied fetch and one write of the flags, so its next state is `exec` unfolded. -/
theorem flagInstructionsWriteOneFlag : Obligations.FlagInstructionsWriteOneFlag :=
  fun _ => ⟨⟨rfl, rfl⟩, ⟨rfl, rfl⟩, ⟨rfl, rfl⟩, ⟨rfl, rfl⟩, ⟨rfl, rfl⟩, ⟨rfl, rfl⟩, ⟨rfl, rfl⟩, rfl, rfl⟩

end Sys2Proof.Machine
end

section
/-! The exception, the halted core and reset (R200 to R203, R220, R221). -/

namespace Sys2Proof.Machine

theorem fetchInstr_eq_none_of_mem {s : State} (h : byteAt s s.pc ∈ unrecognizedOpcodes) : fetchInstr s = none :=
  (decodeAt_eq_none_iff_mem _ _ _).mpr h

theorem step_of_fetchInstr_none {s : State} (hs : s.Idle) (h : fetchInstr s = none) :
    step s = .next (decodeFault s) := by
  obtain ⟨hh, -⟩ | ⟨-, i, hi, -⟩ | ⟨-, -, e⟩ := step_cases s
  · cases hs.symm.trans hh
  · cases h.symm.trans hi
  · exact e

theorem step_of_halted {s : State} (h : s.halted = true) : step s = haltedOutcome s := by
  obtain ⟨-, e⟩ | ⟨hs, -⟩ | ⟨hs, -⟩ := step_cases s
  · exact e
  · cases h.symm.trans hs
  · cases h.symm.trans hs

/-- Settles O7: the next state is `decodeFault`'s, whose law names every field. -/
theorem unrecognizedOpcodeHalts : Obligations.UnrecognizedOpcodeHalts :=
  fun s hs h => ⟨decodeFault s, step_of_fetchInstr_none hs (fetchInstr_eq_none_of_mem h), decodeFault_eq s⟩

/-- Settles O8. -/
theorem haltedCoreExecutesNothing : Obligations.HaltedCoreExecutesNothing :=
  fun _ h => ⟨step_of_halted h, fun _ => execute_halted h⟩

/-- Settles O9: reset reads nothing of the old state, so every clause is `State.resetTo` unfolded. -/
theorem resetLeavesStatedValues : Obligations.ResetLeavesStatedValues :=
  fun _ _ => ⟨rfl, rfl, rfl, rfl, rfl, rfl, fun _ => rfl, rfl⟩

end Sys2Proof.Machine
end

section
/-! What every instruction costs (R240), as one table over the form tables, and that nothing an instruction does depends on the
count it started from (R241). -/

namespace Sys2Proof.Machine

/-- The published total of a branch (R160, R240). -/
def branchCycles (taken : Bool) (off : Byte) (s : State) : Nat :=
  if taken then 3 + (pagesDiffer (branchTarget (s.pc + 2) off) (s.pc + 2)).toNat else 2

/-- The published total of an instruction in none of the form tables (R240). -/
def formlessCycles (i : Instr) : Nat :=
  match i with
  | .pha | .php | .jmpAbs _ => 3
  | .pla | .plp => 4
  | .jmpInd _ => 5
  | .jsr _ | .rts => 6
  | _ => 2

/-- The published total of an instruction (R60, R240). -/
def instrCycles (i : Instr) (s : State) : Nat :=
  match readForm i, storeForm i, modifyForm i, branchForm i s.flags with
  | some (_, o), _, _, _ => readCycles o s
  | none, some (_, m), _, _ => storeCycles m
  | none, none, some (_, m), _ => modifyCycles m
  | none, none, none, some (_, off, taken) => branchCycles taken off s
  | none, none, none, none => formlessCycles i

/-! The count an instruction leaves -/

theorem exec_cycles_of_readForm {i : Instr} {opc : Byte} {o : Operand} {s t : State} (h : readForm i = some (opc, o))
    (ht : exec i s = .next t) : t.cycles = s.cycles + readCycles o s := by
  have hread : t.cycles = (readOperand o (afterOpcode s)).2.cycles := by
    cases i <;> cases h
    all_goals cases ht; rfl
  rw [hread, readOperand_afterOpcode, add_readCycles]

theorem exec_cycles_of_storeForm {i : Instr} {opc : Byte} {m : AddrMode} {s t : State} (h : storeForm i = some (opc, m))
    (ht : exec i s = .next t) : t.cycles = s.cycles + storeCycles m := by
  cases i <;> cases h
  all_goals cases ht; rfl

theorem exec_cycles_of_modifyForm {i : Instr} {opc : Byte} {m : AddrMode} {s t : State}
    (h : modifyForm i = some (opc, m)) (ht : exec i s = .next t) : t.cycles = s.cycles + modifyCycles m := by
  cases i <;> cases h
  all_goals cases ht; rfl

theorem exec_cycles_of_branchForm {i : Instr} {opc off : Byte} {taken : Bool} {s t : State}
    (h : branchForm i s.flags = some (opc, off, taken)) (ht : exec i s = .next t) :
    t.cycles = s.cycles + branchCycles taken off s := by
  cases (exec_eq_branchIf h).symm.trans ht
  cases taken with
  | false => rw [branchIf_not_taken]; rfl
  | true => rw [branchIf_taken, ← toNat_pagesDiffer]; exact Nat.add_assoc _ _ _

/-- What is left are the implied instructions, those of the stack, the jumps and the returns. -/
theorem exec_cycles_of_formless {i : Instr} {s t : State} (hr : readForm i = none) (hs : storeForm i = none)
    (hm : modifyForm i = none) (hb : branchForm i s.flags = none) (ht : exec i s = .next t) :
    t.cycles = s.cycles + formlessCycles i := by
  cases i <;> cases hr <;> cases hs <;> cases hm <;> cases hb
  all_goals cases ht; rfl

theorem exec_cycles {i : Instr} {s t : State} (ht : exec i s = .next t) : t.cycles = s.cycles + instrCycles i s := by
  unfold instrCycles
  split
  · next h => exact exec_cycles_of_readForm h ht
  · next h => exact exec_cycles_of_storeForm h ht
  · next h => exact exec_cycles_of_modifyForm h ht
  · next h => exact exec_cycles_of_branchForm h ht
  · next hr hs hm hb => exact exec_cycles_of_formless hr hs hm hb ht

/-! Its bounds -/

theorem readCycles_bounds (o : Operand) (s : State) : 2 ≤ readCycles o s ∧ readCycles o s ≤ 6 := by
  cases o with
  | immediate v => exact ⟨Nat.le_refl 2, Nat.le_add_right 2 4⟩
  | memory m =>
    have hp := (pageCrossed m s).toNat_le
    cases m <;> dsimp only [readCycles] <;> omega

theorem storeCycles_bounds (m : AddrMode) : 2 ≤ storeCycles m ∧ storeCycles m ≤ 6 := by
  cases m <;> dsimp only [storeCycles] <;> omega

/-- The two indirect modes, which would cost 8 cycles, are in no row of the table (R60). -/
theorem modifyCycles_bounds {i : Instr} {opc : Byte} {m : AddrMode} (h : modifyForm i = some (opc, m)) :
    2 ≤ modifyCycles m ∧ modifyCycles m ≤ 7 := by
  unfold modifyForm at h
  split at h <;> cases h
  all_goals dsimp only [modifyCycles, storeCycles]; omega

theorem branchCycles_bounds (taken : Bool) (off : Byte) (s : State) :
    2 ≤ branchCycles taken off s ∧ branchCycles taken off s ≤ 4 := by
  have hp := (pagesDiffer (branchTarget (s.pc + 2) off) (s.pc + 2)).toNat_le
  unfold branchCycles
  split <;> omega

theorem formlessCycles_bounds (i : Instr) : 2 ≤ formlessCycles i ∧ formlessCycles i ≤ 6 := by
  cases i <;> exact ⟨Nat.le_of_ble_eq_true rfl, Nat.le_of_ble_eq_true rfl⟩

theorem instrCycles_bounds (i : Instr) (s : State) : 2 ≤ instrCycles i s ∧ instrCycles i s ≤ 7 := by
  unfold instrCycles
  split
  · next o _ =>
    obtain ⟨hlo, hhi⟩ := readCycles_bounds o s
    exact ⟨hlo, by omega⟩
  · next m _ _ =>
    obtain ⟨hlo, hhi⟩ := storeCycles_bounds m
    exact ⟨hlo, by omega⟩
  · next h => exact modifyCycles_bounds h
  · next off taken _ _ _ _ =>
    obtain ⟨hlo, hhi⟩ := branchCycles_bounds taken off s
    exact ⟨hlo, by omega⟩
  · obtain ⟨hlo, hhi⟩ := formlessCycles_bounds i
    exact ⟨hlo, by omega⟩

/-! What an instruction leaves alone -/

theorem exec_frame {i : Instr} {s t : State} (ht : exec i s = .next t) :
    t.halted = s.halted ∧ t.faultAddr = s.faultAddr ∧ t.faultOp = s.faultOp := by
  obtain ⟨p, n, rfl, -⟩ := exec_inv ht
  exact ⟨rfl, rfl, rfl⟩

/-- Settles O48: the next state's count is the old one plus the table's total. -/
theorem everyInstructionCompletes : Obligations.EveryInstructionCompletes := by
  intro i s
  obtain ⟨p, n, ht, -⟩ := exec_eq_afterInstr i s
  have hcycles := exec_cycles ht
  obtain ⟨hlo, hhi⟩ := instrCycles_bounds i s
  exact ⟨_, ht, by omega, by omega, exec_frame ht⟩

/-! A count that starts `n` higher -/

theorem instrCycles_charge (i : Instr) (n : Nat) (s : State) : instrCycles i (s.charge n) = instrCycles i s := rfl

theorem branchIf_charge_pc (cond : Bool) (off : Byte) (n : Nat) (s : State) :
    (branchIf cond off (s.charge n)).pc = (branchIf cond off s).pc := by
  cases cond <;> rfl

/-- Where a writer of `PC` goes is read from its operand, the stack or memory; every other instruction goes to the address after
its own bytes. -/
theorem exec_charge_pc {i : Instr} {n : Nat} {s t u : State} (ht : exec i s = .next t)
    (hu : exec i (s.charge n) = .next u) : u.pc = t.pc := by
  by_cases hmn : mnemonic i ∈ pcWriters
  · cases i
    case beq off | bne off | bcs off | bcc off | bmi off | bpl off | bvs off | bvc off =>
      cases ht; cases hu
      exact branchIf_charge_pc _ off n s
    case jmpAbs w =>
      cases ht; cases hu
      rfl
    case jmpInd w =>
      cases ht; cases hu
      rw [jumpThrough_eq, jumpThrough_eq]
      exact wordAt_congr rfl w
    case jsr w =>
      cases ht; cases hu
      rw [callTo_eq, callTo_eq]
    case rts =>
      cases ht; cases hu
      rw [returnFromCall_eq, returnFromCall_eq]
      rfl
    all_goals simp [mnemonic] at hmn
  · obtain ⟨p, k, rfl, hp⟩ := exec_inv ht
    obtain ⟨q, m, rfl, hq⟩ := exec_inv hu
    exact (hq hmn).trans (hp hmn).symm

theorem afterInstr_charge (i : Instr) (p : Word) (k n : Nat) (s : State) :
    afterInstr i p (k + n) (s.charge n) = (afterInstr i p k s).charge n := rfl

/-- No table of what an instruction writes looks at the count, and its cost does not depend on it. -/
theorem exec_charge {i : Instr} {s t : State} (n : Nat) (ht : exec i s = .next t) :
    exec i (s.charge n) = .next (t.charge n) := by
  obtain ⟨q, m, hu, -⟩ := exec_eq_afterInstr i (s.charge n)
  have hpc : q = t.pc := exec_charge_pc ht hu
  have hcycles : m = (s.charge n).cycles + instrCycles i (s.charge n) := exec_cycles hu
  rw [instrCycles_charge, State.charge_cycles, Nat.add_right_comm, ← exec_cycles ht] at hcycles
  obtain ⟨p, k, rfl, -⟩ := exec_inv ht
  rw [hu, hpc, hcycles]
  exact congrArg Host.Outcome.next (afterInstr_charge i p k n s)

/-- A step that runs an instruction, whatever the count. -/
theorem step_charge {s t : State} (n : Nat) (hs : step s = .next t) (ht : t.Idle) :
    step (s.charge n) = .next (t.charge n) := by
  obtain ⟨-, e⟩ | ⟨hh, i, hi, e⟩ | ⟨-, -, e⟩ := step_cases s
  · cases e.symm.trans hs
  · rw [step_of_fetchInstr (s := s.charge n) hh hi]
    exact exec_charge n (e.symm.trans hs)
  · cases e.symm.trans hs
    cases ht

/-- A step that halts takes the exception. -/
theorem eq_decodeFault_of_step {s t : State} (hs : step s = .next t) (ht : t.halted = true) :
    s.Idle ∧ fetchInstr s = none ∧ t = decodeFault s := by
  obtain ⟨-, e⟩ | ⟨hh, i, -, e⟩ | ⟨hh, hf, e⟩ := step_cases s
  · cases e.symm.trans hs
  · obtain ⟨hth, -⟩ := exec_frame (e.symm.trans hs)
    cases ht.symm.trans (hth.trans hh)
  · exact ⟨hh, hf, Host.Outcome.next.inj (hs.symm.trans e)⟩

/-- Settles O53, by whether the step halts. -/
theorem stepIgnoresTheCycleCount : Obligations.StepIgnoresTheCycleCount := by
  refine fun s t n hs => ⟨step_charge n hs, fun ht => ?_⟩
  obtain ⟨hh, hf, rfl⟩ := eq_decodeFault_of_step hs ht
  exact ⟨_, step_of_fetchInstr_none (s := s.charge n) hh hf, rfl⟩

end Sys2Proof.Machine
end

section
/-! Runs (R204, R208, R211, R225, R227): how the loop ends, and that a run can be cut at any of its loop tests. -/

namespace Sys2Proof.Machine

/-! One step of the idle core -/

theorem step_of_idle {s : State} (hs : s.Idle) :
    (∃ t, step s = .next t ∧ t.Idle ∧ s.cycles + 2 ≤ t.cycles ∧ t.cycles ≤ s.cycles + 7) ∨
    step s = .next (decodeFault s) := by
  cases hf : fetchInstr s with
  | none => exact .inr (step_of_fetchInstr_none hs hf)
  | some i =>
    obtain ⟨t, ht, hlo, hhi, hh, -⟩ := everyInstructionCompletes i s
    exact .inl ⟨t, (step_of_fetchInstr hs hf).trans ht, hh.trans hs, hlo, hhi⟩

/-- One iteration of the loop on the idle core: the loop test ends the run, an instruction runs and the loop goes on, or the
exception ends the run. -/
theorem runLoop_succ_cases (budget fuel : Nat) {s : State} (hs : s.Idle) :
    (budget ≤ s.cycles ∧ runLoop budget (fuel + 1) s = .returned s.cycles s) ∨
    (s.cycles < budget ∧ ∃ t, step s = .next t ∧ t.Idle ∧ s.cycles + 2 ≤ t.cycles ∧ t.cycles ≤ s.cycles + 7 ∧
      runLoop budget (fuel + 1) s = runLoop budget fuel t) ∨
    runLoop budget (fuel + 1) s = .faulted s.pc (byteAt s s.pc) (decodeFault s) := by
  by_cases hspent : budget ≤ s.cycles
  · exact .inl ⟨hspent, runLoop_of_spent _ hspent⟩
  · have hlt := Nat.not_le.mp hspent
    obtain ⟨t, ht, hidle, hlo, hhi⟩ | ht := step_of_idle hs
    · exact .inr (.inl ⟨hlt, t, ht, hidle, hlo, hhi, runLoop_of_next fuel hlt ht hidle⟩)
    · exact .inr (.inr (runLoop_of_halt fuel hlt ht rfl))

/-! How a run ends -/

/-- The two ends of a run with a budget (R227): the idle core, the budget met and overshot by at most 6 cycles, or the halted
core, the report its fault record. -/
def RunResult.Ends (budget : Nat) (r : RunResult) : Prop :=
  match r with
  | .returned used t => budget ≤ used ∧ used ≤ budget + 6 ∧ used = t.cycles ∧ t.Idle
  | .faulted addr op t => addr = t.faultAddr ∧ op = t.faultOp ∧ t.halted = true
  | .refused _ => False

/-- The fuel suffices because no iteration that goes on leaves the count as it was. -/
theorem runLoop_ends {budget fuel : Nat} {s : State} (hs : s.Idle) (hfuel : budget ≤ s.cycles + fuel)
    (hover : s.cycles ≤ budget + 6) : (runLoop budget fuel s).Ends budget := by
  induction fuel generalizing s with
  | zero => exact ⟨hfuel, hover, rfl, hs⟩
  | succ fuel ih =>
    obtain ⟨hspent, e⟩ | ⟨hlt, t, -, hidle, hlo, hhi, e⟩ | e := runLoop_succ_cases budget fuel hs <;> rw [e]
    · exact ⟨hspent, hover, rfl, hs⟩
    · exact ih hidle (by omega) (by omega)
    · exact ⟨rfl, rfl, rfl⟩

/-- `execute` starts the count at 0 and gives the loop as many iterations as its budget has cycles (R225). -/
theorem runLoop_dropCount_ends (budget : Nat) {s : State} (hs : s.Idle) :
    (runLoop budget budget s.dropCount).Ends budget :=
  runLoop_ends hs (Nat.le_add_left budget _) (Nat.zero_le _)

/-- A run that returns is the loop's, its count dropped. -/
theorem execute_eq_returned {budget used : Nat} {s t : State} (hs : s.Idle) :
    execute budget s = .returned used t ↔ ∃ r, runLoop budget budget s.dropCount = .returned used r ∧ t = r.dropCount := by
  rw [execute_idle hs, endRun_eq_returned]

/-- What a run of the idle core that returns says of its loop, whose count it returns and drops. -/
theorem execute_returned_inv {budget used : Nat} {s t : State} (hs : s.Idle) (h : execute budget s = .returned used t) :
    ∃ r, runLoop budget budget s.dropCount = .returned r.cycles r ∧ used = r.cycles ∧ t = r.dropCount ∧
      budget ≤ r.cycles ∧ r.cycles ≤ budget + 6 ∧ r.Idle := by
  obtain ⟨r, hr, rfl⟩ := (execute_eq_returned hs).mp h
  have hends := runLoop_dropCount_ends budget hs
  rw [hr] at hends
  obtain ⟨hlo, hhi, rfl, hidle⟩ := hends
  exact ⟨r, hr, rfl, rfl, hlo, hhi, hidle⟩

/-- Settles O55. -/
theorem runUsesItsBudget : Obligations.RunUsesItsBudget := by
  refine fun budget s hs => ⟨fun used t h => ?_, execute_idle hs⟩
  obtain ⟨r, -, rfl, rfl, hlo, hhi, hidle⟩ := execute_returned_inv hs h
  exact ⟨hlo, hhi, rfl, hidle⟩

/-- Settles O56: a halted core reports at once, and an idle one ends as the loop does. -/
theorem runReturnsOrFaults : Obligations.RunReturnsOrFaults := by
  intro budget s
  cases hs : s.halted with
  | true => exact .inr ⟨s, execute_halted hs, hs⟩
  | false =>
    have hends := runLoop_dropCount_ends budget hs
    rw [execute_idle hs]
    generalize runLoop budget budget s.dropCount = r at hends
    cases r with
    | returned used t =>
      obtain ⟨-, -, -, hidle⟩ := hends
      exact .inl ⟨used, t.dropCount, rfl, hidle⟩
    | faulted addr op t =>
      obtain ⟨rfl, rfl, hh⟩ := hends
      exact .inr ⟨t.dropCount, rfl, hh⟩
    | refused reason => exact hends.elim

/-- Settles O57: the first loop test lets the instruction run, and a budget of 1 is fuel for no second one. -/
theorem runOfOneIsOneStep : Obligations.RunOfOneIsOneStep := by
  intro s t i hs hi ht
  have hstep : step s.dropCount = .next t := (step_of_fetchInstr (s := s.dropCount) hs hi).trans ht
  obtain ⟨hh, -⟩ := exec_frame ht
  have hloop : runLoop 1 1 s.dropCount = .returned t.cycles t :=
    runLoop_of_next 0 Nat.zero_lt_one hstep (hh.trans hs)
  exact (execute_eq_returned hs).mpr ⟨t, hloop, rfl⟩

/-! Two runs in a row -/

/-- The loop with a greater budget first does what the loop with the smaller one did, in `k` iterations that cost at least `k`
cycles, and goes on from there with the fuel they leave. -/
theorem runLoop_extend {budget budget' fuel used : Nat} {s t : State} (hb : budget ≤ budget') (hs : s.Idle)
    (h : runLoop budget fuel s = .returned used t) :
    ∃ k, k ≤ fuel ∧ s.cycles + k ≤ t.cycles ∧
      ∀ fuel', k ≤ fuel' → runLoop budget' fuel' s = runLoop budget' (fuel' - k) t := by
  induction fuel generalizing s with
  | zero =>
    cases h
    exact ⟨0, Nat.le_refl _, Nat.le_refl _, fun _ _ => rfl⟩
  | succ fuel ih =>
    obtain ⟨-, e⟩ | ⟨hlt, r, hr, hidle, hlo, -, e⟩ | e := runLoop_succ_cases budget fuel hs <;> rw [e] at h
    · cases h
      exact ⟨0, Nat.zero_le _, Nat.le_refl _, fun _ _ => rfl⟩
    · obtain ⟨k, hkf, hkc, hrest⟩ := ih hidle h
      refine ⟨k + 1, Nat.add_le_add_right hkf 1, by omega, fun fuel' hk => ?_⟩
      obtain ⟨m, rfl⟩ := Nat.exists_eq_add_of_le' (Nat.le_of_add_left_le hk)
      rw [runLoop_of_next m (Nat.lt_of_lt_of_le hlt hb) hr hidle, hrest m (Nat.le_of_add_le_add_right hk),
        Nat.add_sub_add_right]
    · cases h

/-- Where the loop test ended a run, more fuel changes nothing. -/
theorem runLoop_of_fuel_le {budget fuel fuel' used : Nat} {s t : State} (hs : s.Idle)
    (h : runLoop budget fuel s = .returned used t) (hspent : budget ≤ t.cycles) (hfuel : fuel ≤ fuel') :
    runLoop budget fuel' s = .returned t.cycles t := by
  obtain ⟨k, hk, -, hrest⟩ := runLoop_extend (Nat.le_refl budget) hs h
  rw [hrest fuel' (hk.trans hfuel), runLoop_of_spent _ hspent]

/-- The loop from a count `n` higher, with a budget as much higher, returns as much more. -/
theorem runLoop_charge {budget fuel used : Nat} {s t : State} (n : Nat) (hs : s.Idle)
    (h : runLoop budget fuel s = .returned used t) :
    runLoop (budget + n) fuel (s.charge n) = .returned (used + n) (t.charge n) := by
  induction fuel generalizing s with
  | zero =>
    cases h
    rfl
  | succ fuel ih =>
    obtain ⟨hspent, e⟩ | ⟨hlt, r, hr, hidle, -, -, e⟩ | e := runLoop_succ_cases budget fuel hs <;> rw [e] at h
    · cases h
      exact runLoop_of_spent _ (Nat.add_le_add_right hspent n)
    · rw [runLoop_of_next fuel (Nat.add_lt_add_right hlt n) (step_charge n hr hidle) hidle]
      exact ih hidle h
    · cases h

theorem dropCount_charge_cycles (s : State) : s.dropCount.charge s.cycles = s := by
  apply State.eq_of_fields <;> simp

/-- Settles O58: the loop with the whole budget does the first run, and from there it is the second run's loop with the first
run's count added to the budget and to the count. -/
theorem runsCompose : Obligations.RunsCompose := by
  intro b₁ b₂ u₁ u₂ s t u hs h₁ h₂
  obtain ⟨r, hr, rfl, rfl, hlo₁, -, hidle⟩ := execute_returned_inv hs h₁
  obtain ⟨q, hq, rfl, rfl, hlo₂, -⟩ := execute_returned_inv (s := r.dropCount) hidle h₂
  have hsecond := runLoop_charge r.cycles (s := r.dropCount) hidle hq
  rw [dropCount_charge_cycles] at hsecond
  obtain ⟨k, -, hk, hrest⟩ :=
    runLoop_extend (s := s.dropCount) (hlo₁.trans (Nat.le_add_left r.cycles b₂)) hs hr
  have hk : k ≤ r.cycles := (Nat.le_add_left k 0).trans hk
  rw [Nat.add_comm r.cycles b₂, Nat.add_comm r.cycles q.cycles]
  refine (execute_eq_returned hs).mpr ⟨q.charge r.cycles, ?_, rfl⟩
  rw [hrest _ (by omega)]
  exact runLoop_of_fuel_le hidle hsecond (Nat.add_le_add_right hlo₂ _) (by omega)

end Sys2Proof.Machine
end

section
/-! The host's writes (R230) and `load_program` (R231). -/

namespace Sys2Proof.Machine

/-! One item -/

theorem hostWrite_of_idle {s : State} (hs : s.Idle) (req : HostWrite) :
    hostWrite req s = .next (applyHostWrite req s) := by
  rw [hostWrite, hs]
  rfl

theorem hostWrite_of_halted {s : State} (hs : s.halted = true) (req : HostWrite) :
    hostWrite req s = .refused .hostWriteWhileHalted := by
  rw [hostWrite, hs]
  rfl

theorem getFlag_setFlag (g name : FlagName) (value : Bool) (f : Flags) :
    getFlag g (setFlag name value f) = if g = name then value else getFlag g f := by
  cases name <;> cases g <;> rfl

/-- Settles O59. -/
theorem hostWritesOneItem : Obligations.HostWritesOneItem := by
  refine fun s w v name value => ⟨fun hs => ?_, hostWrite_of_halted⟩
  have hw := hostWrite_of_idle hs
  exact ⟨hw (.pc w), hw (.sp v), hw (.a v), hw (.x v), hw (.y v),
    ⟨_, hw (.flag name value), rfl, fun g => getFlag_setFlag g name value s.flags⟩,
    ⟨_, hw (.cell w v), rfl, byteAt_write s _ w v rfl⟩⟩

/-! A program image -/

theorem imageFits_cons_cons (lo hi : Byte) (body : List Byte) :
    imageFits (lo :: hi :: body) = decide ((joinBytes hi lo).toNat + body.length ≤ 65536) := rfl

/-- An image with a load address, `load_program`'s first check passed. -/
theorem loadProgram_of_idle {s : State} (hs : s.Idle) (lo hi : Byte) (body : List Byte) :
    loadProgram (lo :: hi :: body) s =
      if (joinBytes hi lo).toNat + body.length ≤ 65536 then
        .next ((s.setMem (Memory.writeList s.mem (joinBytes hi lo).toNat body)).setPC (joinBytes hi lo))
      else .refused .imagePastTop := by
  have hlen : imageHasAddress (lo :: hi :: body) = true := decide_eq_true (Nat.le_add_left 2 body.length)
  rw [loadProgram, hs, hlen, imageFits_cons_cons]
  simp [imageBase]

theorem loadProgram_of_no_address {s : State} (hs : s.Idle) {bytes : List Byte} (h : imageHasAddress bytes = false) :
    loadProgram bytes s = .refused .imageTooShort := by
  rw [loadProgram, hs, h]
  rfl

/-- Settles O60: what each cell reads after the copy is `Memory.read_writeList`. -/
theorem loadProgramCopiesItsBody : Obligations.LoadProgramCopiesItsBody := by
  intro s lo hi body hs
  rw [loadProgram_of_idle hs]
  refine ⟨fun hfits => ⟨_, if_pos hfits, rfl, fun q => Memory.read_writeList s.mem _ body q.toNat⟩,
    fun hpast => if_neg (Nat.not_le.mpr hpast), loadProgram_of_no_address hs rfl, loadProgram_of_no_address hs rfl⟩

end Sys2Proof.Machine
end
